-- ==== Sys2Proof/Word.lean ====
section
/-!
DEFINITION. The word types of the block's ports (20_memory.md rule R61, 30_encoding.md rule R89).
Bits are numbered from 0, the least significant, and every value is unsigned (00_scope.md rule R10).
-/

namespace Sys2Proof

/-- An 8-bit sample or byte: the width of the txs and rxo ports (rule R61). -/
abbrev Byte := BitVec 8

/-- A transmit command word, the width of port txc (rules R61, R80). -/
abbrev TxcWord := BitVec 32

/-- A receive word, the width of port rxi (rules R61, R85). -/
abbrev RxiWord := BitVec 16

/-- A control-register request: WE, IDX and WDATA (rule R89). -/
abbrev CsrReq := BitVec 36

/-- A control register's contents, and a CSRR's response (rule R66). -/
abbrev CsrWord := BitVec 32

end Sys2Proof
end

