-- ==== Sys2Proof/Syntax.lean ====
section
/-!
DEFINITION. The transactions of spec/opcode_table.json (30_encoding.md rule R93), one constructor per row.
The two delivery steps (rules R115 and R153) decode nothing and are no transactions: they are turns of the step.
-/

namespace Sys2Proof

/-- One accepted transaction. DESIGN CHOICE (log 10): the two reserved forms carry the word they were decoded from, and
CSRR the WDATA bits the block ignores, so that no bit of a word is lost in decoding; no meaning reads them. -/
inductive Instr where
  /-- TXB BYTE: transmit one framed byte (rules R81, R110). -/
  | txb (byte : BitVec 8)
  /-- TXC SECONDS: transmit a carrier of SECONDS seconds (rules R82, R111). -/
  | txc (seconds : BitVec 16)
  /-- TXCC CYCLES: transmit a carrier of CYCLES ONE-tone cycles (rules R83, R112). -/
  | txcc (cycles : BitVec 24)
  /-- ILLEGAL_TXC: a reserved transmit word (rules R84, R113). -/
  | illegalTxc (word : TxcWord)
  /-- RXS SAMPLE: take one sample of the received waveform (rules R86, R150). -/
  | rxs (sample : BitVec 8)
  /-- RXE: end of the received stream (rules R87, R151). -/
  | rxe
  /-- ILLEGAL_RXI: a reserved receive word (rules R88, R152). -/
  | illegalRxi (word : RxiWord)
  /-- CSRR IDX: read a control register (rules R89, R180); `wdata` is ignored. -/
  | csrr (idx : BitVec 3) (wdata : CsrWord)
  /-- CSRW IDX, WDATA: write a control register (rules R89, R181). -/
  | csrw (idx : BitVec 3) (wdata : CsrWord)
  deriving DecidableEq, Repr

/-- The three ports that carry transactions into the block (rules R61, R66). -/
inductive InPort where
  | txc
  | rxi
  | csr
  deriving DecidableEq, Repr

/-- A word on one of the ports that carry transactions, at the port's own width (rules R61, R89, R92). -/
inductive PortWord where
  | txc (w : TxcWord)
  | rxi (w : RxiWord)
  | csr (q : CsrReq)
  deriving DecidableEq, Repr

end Sys2Proof
end

