-- ==== Sys2Proof/WellFormed.lean ====
section
/-!
DEFINITION. Which terms of Instr stand for a transaction of the block. Every operand at every value is legal
(rules R110, R86, R89), so only the two reserved forms have a check: the word they carry is a reserved one.
-/

namespace Sys2Proof

/-- The reserved transmit words as rule R84 lists them: OP 0, OP 4 to 15, or OP 1 to 3 with a reserved-zero field that is
not zero (w[27:8] for TXB, w[27:16] for TXC, w[27:24] for TXCC). -/
def txcReserved (w : TxcWord) : Bool :=
  match (w.extractLsb' 28 4).toNat with
  | 1 => w.extractLsb' 8 20 != 0
  | 2 => w.extractLsb' 16 12 != 0
  | 3 => w.extractLsb' 24 4 != 0
  | _ => true

/-- The reserved receive words as rule R88 lists them: TAG 1 with a low byte that is not zero, and TAG 2 to 255. -/
def rxiReserved (w : RxiWord) : Bool :=
  match (w.extractLsb' 8 8).toNat with
  | 0 => false
  | 1 => w.extractLsb' 0 8 != 0
  | _ => true

/-- An instruction is well formed unless it is a reserved form that carries a word some other row matches. -/
def Instr.wellFormed : Instr → Bool
  | .txb _ => true
  | .txc _ => true
  | .txcc _ => true
  | .illegalTxc w => txcReserved w
  | .rxs _ => true
  | .rxe => true
  | .illegalRxi w => rxiReserved w
  | .csrr _ _ => true
  | .csrw _ _ => true

end Sys2Proof
end

