-- ==== Sys2Proof/Decode.lean ====
section
/-!
DEFINITION. Decoding of the words of the three transaction ports, from the match and mask of each row (30_encoding.md
rules R81 to R89, R91, R93), and the encoder, from the bit columns of rules R80, R85 and R89. Each port has one fixed
width (rule R92), and every word of each width decodes (rule R91): a word no row matches is its port's ILLEGAL form.
-/

namespace Sys2Proof

/-- A 32-bit transmit word (rules R81 to R84, R91). -/
def decodeTxc (w : TxcWord) : Instr :=
  if w &&& 0xFFFFFF00#32 = 0x10000000#32 then .txb (w.extractLsb' 0 8)
  else if w &&& 0xFFFF0000#32 = 0x20000000#32 then .txc (w.extractLsb' 0 16)
  else if w &&& 0xFF000000#32 = 0x30000000#32 then .txcc (w.extractLsb' 0 24)
  else .illegalTxc w

/-- A 16-bit receive word (rules R86 to R88, R91). -/
def decodeRxi (w : RxiWord) : Instr :=
  if w &&& 0xFF00#16 = 0x0000#16 then .rxs (w.extractLsb' 0 8)
  else if w &&& 0xFFFF#16 = 0x0100#16 then .rxe
  else .illegalRxi w

/-- A 36-bit control-register request (rule R89): WE = q[35], IDX = q[34:32], WDATA = q[31:0]. -/
def decodeCsr (q : CsrReq) : Instr :=
  if q &&& 0x800000000#36 = 0x000000000#36 then .csrr (q.extractLsb' 32 3) (q.extractLsb' 0 32)
  else .csrw (q.extractLsb' 32 3) (q.extractLsb' 0 32)

/-- The transaction a word on a port stands for (rule R91: total and unambiguous). -/
def decode : PortWord → Instr
  | .txc w => decodeTxc w
  | .rxi w => decodeRxi w
  | .csr q => decodeCsr q

/-- The port an instruction arrives on (rule R93's column "port"). -/
def Instr.port : Instr → InPort
  | .txb _ => .txc
  | .txc _ => .txc
  | .txcc _ => .txc
  | .illegalTxc _ => .txc
  | .rxs _ => .rxi
  | .rxe => .rxi
  | .illegalRxi _ => .rxi
  | .csrr _ _ => .csr
  | .csrw _ _ => .csr

/-- The port a word is on. -/
def PortWord.port : PortWord → InPort
  | .txc _ => .txc
  | .rxi _ => .rxi
  | .csr _ => .csr

/-- The word of an instruction, column by column: rule R80's table for the transmit words, rule R85's for the receive
words, rule R89's fields for the requests. A reserved form is the word it carries. -/
def encode : Instr → PortWord
  | .txb b => .txc (0b0001#4 ++ 0b0000#4 ++ 0x00#8 ++ 0x00#8 ++ b)
  | .txc s => .txc (0b0010#4 ++ 0b0000#4 ++ 0x00#8 ++ s)
  | .txcc c => .txc (0b0011#4 ++ 0b0000#4 ++ c)
  | .illegalTxc w => .txc w
  | .rxs v => .rxi (0x00#8 ++ v)
  | .rxe => .rxi (0x01#8 ++ 0x00#8)
  | .illegalRxi w => .rxi w
  | .csrr i d => .csr (0b0#1 ++ i ++ d)
  | .csrw i d => .csr (0b1#1 ++ i ++ d)

/-- The port word whose bits, numbered as spec/opcode_table.json numbers them, are `w`. DESIGN CHOICE (log 13): the port
is told by the width of the row, since the three ports have three widths (rule R92): 16 bits is rxi, 32 is txc, 36 (40 in
whole bytes) is csr. A number that does not fit the port's width is no word of it. -/
def tablePortWord (nbits w : Nat) : Option PortWord :=
  if nbits ≤ 16 then
    if w < 2 ^ 16 then some (.rxi (BitVec.ofNat 16 w)) else none
  else if nbits ≤ 32 then
    if w < 2 ^ 32 then some (.txc (BitVec.ofNat 32 w)) else none
  else if nbits ≤ 40 then
    if w < 2 ^ 36 then some (.csr (BitVec.ofNat 36 w)) else none
  else none

/-- The instruction the decoder reads from a word of the opcode table. -/
def decodeTableWord (nbits w : Nat) : Option Instr :=
  match tablePortWord nbits w with
  | some p => some (decode p)
  | none => none

end Sys2Proof
end

