-- ==== Sys2Proof/Config.lean ====
section
/-!
DEFINITION. The parameters of 00_scope.md rule R6, as a record. Each is fixed for a block when it is built and no step
changes one (decision D3); 92_eei_decisions.md lists every one as a field of the configuration record a model takes.
The spec leaves no value undefined (10_state.md rule R45), so there is no free value here.
What is computed from the parameters (rule R7) and which sets are legal (rule R8) stands in Machine/Params.lean.
-/

namespace Sys2Proof

/-- The parameters of rule R6. DEDUCED (log 4): they are natural numbers, because every bound of rule R8 and every use of
one in the rules is a count, a frequency or a level in natural arithmetic (rule R11). -/
structure Config where
  /-- SR, P_SAMPLE_RATE. -/
  sampleRate : Nat
  /-- F1, P_ONE_FREQ. -/
  oneFreq : Nat
  /-- F0, P_ZERO_FREQ. -/
  zeroFreq : Nat
  /-- CEN, P_CENTER. -/
  center : Nat
  /-- AMP, P_AMPLITUDE: peak to peak (decision D4). -/
  amplitude : Nat
  /-- REP1, P_ONE_REPEAT: ONE-tone cycles in a bit-1 block. -/
  oneRepeat : Nat
  /-- REP0, P_ZERO_REPEAT: ZERO-tone cycles in a bit-0 block. -/
  zeroRepeat : Nat
  /-- N, P_FRAMES_PER_BIT: the receive window's length. -/
  framesPerBit : Nat
  /-- TS, P_START_THRESHOLD. -/
  startThreshold : Nat
  /-- T1, P_ONE_THRESHOLD. -/
  oneThreshold : Nat
  /-- CPS, P_CARRIER_CPS: ONE-tone cycles in a second of carrier. -/
  carrierCps : Nat
  /-- OD, P_OUT_DEPTH: the capacity of rx_out. -/
  outDepth : Nat
  deriving DecidableEq, Repr

/-- The defaults of rule R6's table. -/
def Config.default : Config where
  sampleRate := 9600
  oneFreq := 2400
  zeroFreq := 1200
  center := 128
  amplitude := 128
  oneRepeat := 8
  zeroRepeat := 4
  framesPerBit := 32
  startThreshold := 9
  oneThreshold := 12
  carrierCps := 2400
  outDepth := 1

end Sys2Proof
end

