-- ==== Sys2Proof/Machine/State.lean ====
section
/-!
DEFINITION. The state of the block (10_state.md), the host's side of its ports, and the state after reset (rule R45).
Plain data: no field is a function. Every field of rules R23, R30 to R36 and R41 has the width the spec gives it.
-/

namespace Sys2Proof.Machine

/-- `tx_mode` (rule R23): 0 = FRAME, a TXB is in progress; 1 = CARRIER, a TXC or TXCC is in progress. -/
inductive TxMode where
  | frame
  | carrier
  deriving DecidableEq, Repr

/-- `rx_state` (rule R31), whose two-bit encoding is 0, 1, 2, 3 in this order. -/
inductive RxState where
  | fill
  | seek
  | sample
  | skip
  deriving DecidableEq, Repr

/-- The transmit engine's fields (rule R23). -/
structure TxEngine where
  /-- tx_busy: the current command still has samples to deliver. -/
  busy : Bool
  /-- tx_mode. -/
  mode : TxMode
  /-- tx_frame: the frame bits of the current TXB, position i in bit i (rule R103). -/
  frame : BitVec 12
  /-- tx_bit: index of the frame bit being sent. -/
  bit : BitVec 4
  /-- tx_cyc: index of the tone cycle within the bit block. -/
  cyc : BitVec 8
  /-- tx_ph: false = first half of the cycle (level LOW), true = second half (level HIGH). -/
  ph : Bool
  /-- tx_cnt: index of the sample within the half-cycle. -/
  cnt : BitVec 32
  /-- tx_left: carrier cycles still to send, counting the current one. -/
  left : BitVec 32
  deriving DecidableEq, Repr

/-- Every transmit field 0 (rule R45). -/
def TxEngine.reset : TxEngine where
  busy := false
  mode := .frame
  frame := 0
  bit := 0
  cyc := 0
  ph := false
  cnt := 0
  left := 0

/-- The receive engine's fields (rules R30 to R35); rx_out (rule R36) stands in State. -/
structure RxEngine where
  /-- rx_prev: bit 7 of the last sample taken (rule R30). -/
  prev : Bool
  /-- rx_state (rule R31). -/
  state : RxState
  /-- rx_win: the ring buffer's N one-bit cells, cell i at position i (rule R32). -/
  win : List Bool
  /-- rx_wptr: the ring buffer's write index (rule R32). -/
  wptr : BitVec 16
  /-- rx_fill: how many cells FILL has filled (rule R32). -/
  fill : BitVec 17
  /-- rx_sum: the number of 1 cells in the window (rule R33). -/
  sum : BitVec 17
  /-- rx_acc: the sum of the sign-change bits taken for the current data bit (rule R34). -/
  acc : BitVec 17
  /-- rx_cnt: how many bits have been taken for the current data bit (rule R34). -/
  cnt : BitVec 16
  /-- rx_bitn: index of the current data bit (rule R34). -/
  bitn : BitVec 4
  /-- rx_byte: the data bits assembled so far (rule R34). -/
  byte : BitVec 8
  /-- rx_skip: the sign-change bits SKIP must still discard (rule R35). -/
  skip : BitVec 18
  deriving DecidableEq, Repr

/-- Every receive field at its value of rule R45, the window with `n` = N cells of 0. -/
def RxEngine.reset (n : Nat) : RxEngine where
  prev := false
  state := .fill
  win := List.replicate n false
  wptr := 0
  fill := 0
  sum := 0
  acc := 0
  cnt := 0
  bitn := 0
  byte := 0
  skip := 0

/-- What one step attempts. DESIGN CHOICE (log 1): rule R74 lets any enabled transfer be the next step; which one it is
stands in State as a list of turns, so that a statement about every State is one about every interleaving.
A turn `txs` or `rxo` is the host holding txs_ready or rxo_ready at 1 for that step. -/
inductive Turn where
  /-- A transfer on txc: the oldest word of `txcIn` (rules R62, R107). -/
  | txc
  /-- A transfer on txs: the host takes a sample (rules R63, R115). -/
  | txs
  /-- A transfer on rxi: the oldest word of `rxiIn` (rules R64, R140). -/
  | rxi
  /-- A transfer on rxo: the host takes a byte (rules R65, R153). -/
  | rxo
  /-- A control-register access: the oldest request of `csrIn` (rules R66, R89). -/
  | csr
  /-- The reset input is asserted (rule R220). -/
  | resetAssert
  /-- The reset input is released (rule R220). -/
  | resetRelease
  deriving DecidableEq, Repr

/-- The whole machine: the parameters, the block, and the host's side of the ports. -/
structure State where
  /-- The parameters of rule R6. No step writes them. -/
  cfg : Config
  /-- The transmit engine (rule R23). -/
  tx : TxEngine
  /-- The receive engine (rules R30 to R35). -/
  rx : RxEngine
  /-- rx_out, oldest byte first (rule R36). -/
  rxOut : List Byte
  /-- ERR_TXC, the stored bit 8 of STATUS (rules R41, R201). -/
  errTxc : Bool
  /-- ERR_RXI, the stored bit 9 of STATUS (rules R41, R202). -/
  errRxi : Bool
  /-- The reset input (rule R220): true while it is asserted. -/
  rst : Bool
  /-- The words the host offers on txc, in order; the first is the word on the port (rule R61). Model's own (log 2). -/
  txcIn : List TxcWord
  /-- The words the host offers on rxi, in order; the first is the word on the port (rule R61). Model's own (log 2). -/
  rxiIn : List RxiWord
  /-- The control-register requests the host makes, in order (rule R89). Model's own (log 2). -/
  csrIn : List CsrReq
  /-- The samples delivered on txs, oldest first (rules R61, R73). Model's own (log 3). -/
  txsOut : List Byte
  /-- The bytes delivered on rxo, oldest first (rules R61, R73). Model's own (log 3). -/
  rxoOut : List Byte
  /-- The words CSRR has returned, oldest first (rule R180). Model's own (log 3). -/
  csrOut : List CsrWord
  /-- The turns to come, the next one first (rule R74). Model's own (log 1). -/
  turns : List Turn
  deriving DecidableEq, Repr

/-- A block with the parameters `c`, right after reset (rules R45, R220), with nothing offered by the host, nothing
delivered yet, and the reset input released (log 15). -/
def State.resetWith (c : Config) : State where
  cfg := c
  tx := TxEngine.reset
  rx := RxEngine.reset c.framesPerBit
  rxOut := []
  errTxc := false
  errRxi := false
  rst := false
  txcIn := []
  rxiIn := []
  csrIn := []
  txsOut := []
  rxoOut := []
  csrOut := []
  turns := []

/-- The machine right after reset, at the default parameters of rule R6. -/
def State.reset : State := State.resetWith Config.default

/-- Why the machine stops with a fault: never. The block has no traps and an error stops no engine (rule R200), and of the
treatment "fault" 93_implementation_defined.md says that no entry uses it. The type has no constructor, so that no
meaning can end in a fault; this is neither safe nor unsafe, since nothing is left out (log 12). -/
inductive Fault where
  deriving DecidableEq, Repr

/-- Why the model gives no meaning. -/
inductive Refusal where
  /-- Raised by `exec` alone, in the arm of an instruction that has no meaning yet; no arm raises it now. Safe. -/
  | notModelled (mnemonic : String)
  /-- Raised by `exec` and `step` in a state whose parameters violate rule R8: "A model refuses any other configuration"
  (decision D5, entry I7). Safe: no claim is made about such a block. -/
  | illegalConfig
  deriving DecidableEq, Repr

end Sys2Proof.Machine
end

