-- ==== Sys2Proof/Machine/Params.lean ====
section
/-!
DEFINITION. The quantities derived from the parameters (00_scope.md rule R7) and which parameter sets are legal (rule R8).
`div` is the integer floor quotient, so a half-length is a floor and never rounded (90_conflicts.md C1).
-/

namespace Sys2Proof.Machine

/-- H1: half-length of a ONE-tone cycle in samples. -/
def halfOne (c : Config) : Nat := c.sampleRate / (2 * c.oneFreq)

/-- H0: half-length of a ZERO-tone cycle in samples. -/
def halfZero (c : Config) : Nat := c.sampleRate / (2 * c.zeroFreq)

/-- CYC1: length of a ONE-tone cycle. -/
def cycOne (c : Config) : Nat := 2 * halfOne c

/-- CYC0: length of a ZERO-tone cycle. -/
def cycZero (c : Config) : Nat := 2 * halfZero c

/-- BLK1: samples in a bit-1 block. -/
def blkOne (c : Config) : Nat := c.oneRepeat * cycOne c

/-- BLK0: samples in a bit-0 block. -/
def blkZero (c : Config) : Nat := c.zeroRepeat * cycZero c

/-- LOW: level of the first half of a cycle (rules R7, R100), a number; rule R8(b) makes the subtraction exact. -/
def lowLevel (c : Config) : Nat := c.center - c.amplitude / 2

/-- HIGH: level of the second half of a cycle (rules R7, R100), a number. -/
def highLevel (c : Config) : Nat := c.center + c.amplitude / 2

/-- LOW as an 8-bit sample; rule R8(b) says that it fits. -/
def low (c : Config) : Byte := BitVec.ofNat 8 (lowLevel c)

/-- HIGH as an 8-bit sample; rule R8(b) says that it fits. -/
def high (c : Config) : Byte := BitVec.ofNat 8 (highLevel c)

/-- FRAME_LEN: bits in a frame (90_conflicts.md C3). -/
def frameLen : Nat := 12

/-- SKIP_LEN = N + (2 N - 1): sign-change bits discarded after the 8th data bit (90_conflicts.md C11). -/
def skipLen (c : Config) : Nat := c.framesPerBit + (2 * c.framesPerBit - 1)

/-- Rule R8(a): the frequencies and the rate are positive and each half-length is at least 1. -/
def legalTones (c : Config) : Bool :=
  decide (0 < c.sampleRate) && decide (0 < c.oneFreq) && decide (0 < c.zeroFreq)
    && decide (1 ≤ halfOne c) && decide (1 ≤ halfZero c)

/-- Rule R8(b): AMP is even and both levels are 8-bit samples, 0 ≤ LOW ≤ HIGH ≤ 255. -/
def legalLevels (c : Config) : Bool :=
  decide (c.amplitude % 2 = 0) && decide (c.amplitude / 2 ≤ c.center) && decide (highLevel c ≤ 255)

/-- Rule R8(c): the repeat counts, the window length, the thresholds and the buffer depth. -/
def legalCounts (c : Config) : Bool :=
  decide (1 ≤ c.oneRepeat) && decide (c.oneRepeat ≤ 255)
    && decide (1 ≤ c.zeroRepeat) && decide (c.zeroRepeat ≤ 255)
    && decide (1 ≤ c.framesPerBit) && decide (c.framesPerBit ≤ 65535)
    && decide (c.startThreshold ≤ c.framesPerBit) && decide (c.oneThreshold ≤ c.framesPerBit)
    && decide (1 ≤ c.outDepth)

/-- Rule R8(d), (e): a carrier count and a half-length fit the 32-bit counters. -/
def legalWidths (c : Config) : Bool :=
  decide (c.carrierCps * 65535 ≤ 2 ^ 32 - 1) && decide (c.sampleRate ≤ 2 ^ 32 - 1)

/-- A legal block (rule R8). -/
def legal (c : Config) : Bool :=
  legalTones c && legalLevels c && legalCounts c && legalWidths c

end Sys2Proof.Machine
end

