-- ==== Sys2Proof/Machine/Ops.lean ====
section
/-!
DEFINITION. The named operations over the state: one write per field, the ready and valid signals of the ports (20_memory.md
rules R62 to R65), consuming the word on a port, accepting a transaction, raising an error (60_exceptions.md rule
R200), and the resets (70_reset_and_hazards.md rules R220 to R222). All reads and writes of the meanings go through these.
-/

namespace Sys2Proof.Machine

/-- What a meaning or a step answers. -/
abbrev Res := Host.Outcome State Fault Refusal

/-! ## One write per field; no operation writes the parameters -/

def State.setTx (s : State) (x : TxEngine) : State := { s with tx := x }
def State.setRx (s : State) (x : RxEngine) : State := { s with rx := x }
def State.setRxOut (s : State) (x : List Byte) : State := { s with rxOut := x }
def State.setErrTxc (s : State) (x : Bool) : State := { s with errTxc := x }
def State.setErrRxi (s : State) (x : Bool) : State := { s with errRxi := x }
def State.setRst (s : State) (x : Bool) : State := { s with rst := x }
def State.setTxcIn (s : State) (x : List TxcWord) : State := { s with txcIn := x }
def State.setRxiIn (s : State) (x : List RxiWord) : State := { s with rxiIn := x }
def State.setCsrIn (s : State) (x : List CsrReq) : State := { s with csrIn := x }
def State.setTxsOut (s : State) (x : List Byte) : State := { s with txsOut := x }
def State.setRxoOut (s : State) (x : List Byte) : State := { s with rxoOut := x }
def State.setCsrOut (s : State) (x : List CsrWord) : State := { s with csrOut := x }
def State.setTurns (s : State) (x : List Turn) : State := { s with turns := x }

/-! ## The block's side of the handshakes -/

/-- txc_ready = NOT tx_busy (rule R62). -/
def txcReady (s : State) : Bool := !s.tx.busy

/-- The stall of rule R140: the engine is at the last sign-change bit of a byte and rx_out is full. -/
def rxStall (s : State) : Bool :=
  decide (s.rx.state = .sample) && decide (s.rx.bitn = 7)
    && decide (s.rx.cnt.toNat = s.cfg.framesPerBit - 1) && decide (s.rxOut.length = s.cfg.outDepth)

/-- rxi_ready = NOT stall, for every receive word (rules R64, R140). -/
def rxiReady (s : State) : Bool := !rxStall s

/-- txs_valid = tx_busy (rule R63). -/
def txsValid (s : State) : Bool := s.tx.busy

/-- rxo_valid: rx_out is non-empty (rule R65). -/
def rxoValid (s : State) : Bool := !s.rxOut.isEmpty

/-- Whether the block takes a word on a port now. A control-register access is allowed in every state (rule R182). -/
def portReady : InPort → State → Bool
  | .txc, s => txcReady s
  | .rxi, s => rxiReady s
  | .csr, _ => true

/-! ## Accepting a transaction -/

/-- A transaction on txc (rule R107): with the engine idle it has its effect `f`. While tx_busy = 1 no transfer happens
and nothing changes: the engine waits (rule R214, log 6). -/
def onTxc (f : State → State) (s : State) : Res :=
  if legal s.cfg then
    if txcReady s then .next (f s) else .next s
  else .refused .illegalConfig

/-- A transaction on rxi (rule R140): unless the engine is stalled it has its effect `f`. While it is stalled no
transfer happens and nothing changes: the engine waits (rule R214, log 6). -/
def onRxi (f : State → State) (s : State) : Res :=
  if legal s.cfg then
    if rxiReady s then .next (f s) else .next s
  else .refused .illegalConfig

/-- A control-register access: allowed in every state (rule R182). -/
def onCsr (f : State → State) (s : State) : Res :=
  if legal s.cfg then .next (f s) else .refused .illegalConfig

/-- The word on offer on a port, and the state once it has transferred; none where the host offers nothing (rule R61). -/
def takeWord (p : InPort) (s : State) : Option (PortWord × State) :=
  match p with
  | .txc =>
    match s.txcIn with
    | [] => none
    | w :: ws => some (.txc w, s.setTxcIn ws)
  | .rxi =>
    match s.rxiIn with
    | [] => none
    | w :: ws => some (.rxi w, s.setRxiIn ws)
  | .csr =>
    match s.csrIn with
    | [] => none
    | q :: qs => some (.csr q, s.setCsrIn qs)

/-- The transfer on a port: where valid and ready are both 1, the decoded transaction and the state with its word
consumed (rules R61, R91, R107, R140). -/
def accept (p : InPort) (s : State) : Option (Instr × State) :=
  if portReady p s then
    match takeWord p s with
    | some (w, s') => some (decode w, s')
    | none => none
  else none

/-! ## Errors -/

/-- The two sticky error bits of STATUS (rule R41). -/
inductive ErrBit where
  | errTxc
  | errRxi
  deriving DecidableEq, Repr

/-- The `flag` primitive, the block's only form of "raise" (rules R12, R200): it sets a sticky bit and nothing else. -/
def flag (b : ErrBit) (s : State) : State :=
  match b with
  | .errTxc => s.setErrTxc true
  | .errRxi => s.setErrRxi true

/-! ## Resets -/

/-- `tx_engine_reset()` (rule R221), which is also the `tx_idle()` of rule R115. -/
def txEngineReset (s : State) : State := s.setTx TxEngine.reset

/-- `rx_engine_reset(keep_out)` (rule R222). -/
def rxEngineReset (keepOut : Bool) (s : State) : State :=
  let s' := s.setRx (RxEngine.reset s.cfg.framesPerBit)
  if keepOut then s' else s'.setRxOut []

/-- The hardware reset at the release of the reset input (rule R220): every field of rule R45 takes its reset value. What
the host offers and what it has been given is the host's and stays. -/
def hardwareReset (s : State) : State :=
  (((rxEngineReset false (txEngineReset s)).setErrTxc false).setErrRxi false).setRst false

/-! ## Placing a word on a port -/

/-- `s` with a word offered on its port, ahead of all else, and that port's turn next. -/
def placeWord (w : PortWord) (s : State) : State :=
  let s' := s.setRst false
  match w with
  | .txc w => (s'.setTxcIn (w :: s.txcIn)).setTurns (.txc :: s.turns)
  | .rxi w => (s'.setRxiIn (w :: s.rxiIn)).setTurns (.rxi :: s.turns)
  | .csr q => (s'.setCsrIn (q :: s.csrIn)).setTurns (.csr :: s.turns)

end Sys2Proof.Machine
end

