-- ==== Sys2Proof/Machine/Flags.lean ====
section
/-!
DEFINITION. The bits the block computes: popcount and parity (00_scope.md rule R11, 40_tx_synth.md rule R103), the sum of
a window (10_state.md rule R33), and the STATUS word with its mirrors (rules R31, R41, 42_csr.md rule R180).
-/

namespace Sys2Proof.Machine

/-- `popcount(v)`: how many bits of `v` are 1 (rule R11). -/
def popcount {w : Nat} (v : BitVec w) : Nat := ((List.range w).filter fun i => v.getLsbD i).length

/-- The parity bit of a byte: popcount mod 2, even parity (rule R103, 90_conflicts.md C6). -/
def parity (b : Byte) : Bool := popcount b % 2 == 1

/-- The number of 1 cells of a window, `popcount(rx_win)` (rule R33). -/
def ones (win : List Bool) : Nat := win.count true

/-- The two-bit encoding of rx_state (rule R31). -/
def rxStateCode : RxState → BitVec 2
  | .fill => 0
  | .seek => 1
  | .sample => 2
  | .skip => 3

/-- The one-bit encoding of tx_mode (rule R23). -/
def txModeCode : TxMode → BitVec 1
  | .frame => 0
  | .carrier => 1

/-- STATUS as a read returns it (rules R41, R180): bits 9 down to 0 are ERR_RXI, ERR_TXC, 0000, RX_STATE, RXO_VALID,
TX_BUSY, zero-extended to 32 bits. -/
def statusWord (s : State) : CsrWord :=
  (BitVec.ofBool s.errRxi ++ BitVec.ofBool s.errTxc ++ 0b0000#4
    ++ rxStateCode s.rx.state ++ BitVec.ofBool (rxoValid s) ++ BitVec.ofBool s.tx.busy).zeroExtend 32

end Sys2Proof.Machine
end

