-- ==== Sys2Proof/Machine/Csr.lean ====
section
/-!
DEFINITION. The control-register family (42_csr.md rules R180 to R182; registers of 10_state.md rules R40 to R42).
-/

namespace Sys2Proof.Machine

/-- The word a read of register `idx` returns (rule R180): CTRL's pulse bits read 0, reserved indices read 0. -/
def csrRead (idx : BitVec 3) (s : State) : CsrWord := if idx = 1 then statusWord s else 0

/-- A write to CTRL (rules R40, R181): bit 0 is TX_RST, bit 1 is RX_RST, bits 31:2 are ignored. -/
def writeCtrl (d : CsrWord) (s : State) : State :=
  let s' := if d.getLsbD 0 then txEngineReset s else s
  if d.getLsbD 1 then rxEngineReset false s' else s'

/-- A write to STATUS (rules R41, R181): a 1 in bit 8 or 9 clears that error bit; all other bits are ignored. -/
def writeStatus (d : CsrWord) (s : State) : State :=
  let s' := if d.getLsbD 8 then s.setErrTxc false else s
  if d.getLsbD 9 then s'.setErrRxi false else s'

/-- A write to register `idx` (rule R181): indices 2 to 7 have no effect. -/
def csrWrite (idx : BitVec 3) (d : CsrWord) (s : State) : State :=
  if idx = 0 then writeCtrl d s
  else if idx = 1 then writeStatus d s
  else s

/-- CSRR IDX (rule R180): the response word is returned and nothing else changes; WDATA is ignored. -/
def execCsrr (idx : BitVec 3) (_wdata : CsrWord) (s : State) : Res :=
  onCsr (fun s => s.setCsrOut (s.csrOut ++ [csrRead idx s])) s

/-- CSRW IDX, WDATA (rule R181). -/
def execCsrw (idx : BitVec 3) (wdata : CsrWord) (s : State) : Res := onCsr (csrWrite idx wdata) s

end Sys2Proof.Machine
end

