-- ==== Sys2Proof/Machine/Receive.lean ====
section
/-!
DEFINITION. The receive engine (41_rx_decode.md): the EdgeDetector (rule R141), the synchronizer's four states (rules R142
to R147), one meaning per receive transaction (rules R150 to R152), and the byte-delivery step (rule R153).
-/

namespace Sys2Proof.Machine

/-! ## The receive pipeline -/

/-- The sign-change bit of a sample (rule R141): its bit 7 against the last sample's. -/
def edge (v : Byte) (prev : Bool) : Bool := v.getLsbD 7 ^^ prev

/-- `(rx_wptr + 1) mod N` (rules R143, R144). -/
def nextPtr (c : Config) (r : RxEngine) : BitVec 16 := BitVec.ofNat 16 ((r.wptr.toNat + 1) % c.framesPerBit)

/-- FILL (rule R143): the bit goes into the window and the threshold is not tested. -/
def rxFillStep (c : Config) (e : Bool) (r : RxEngine) : RxEngine :=
  { r with
    win := r.win.set r.wptr.toNat e
    wptr := nextPtr c r
    sum := BitVec.ofNat 17 (r.sum.toNat + e.toNat)
    fill := BitVec.ofNat 17 (r.fill.toNat + 1)
    state := if r.fill.toNat + 1 = c.framesPerBit then .seek else r.state }

/-- The oldest bit of a full window, the one a SEEK step evicts (rules R32, R144). -/
def evicted (r : RxEngine) : Bool := r.win.getD r.wptr.toNat false

/-- `sum' = rx_sum − ev + e` (rule R144); the subtraction is exact wherever rule R33 holds (log 9). -/
def slidSum (e : Bool) (r : RxEngine) : Nat := r.sum.toNat - (evicted r).toNat + e.toNat

/-- A start bit is detected when the slid sum is at most TS (rule R144). -/
def startSeen (c : Config) (e : Bool) (r : RxEngine) : Bool := decide (slidSum e r ≤ c.startThreshold)

/-- SEEK (rule R144): slide the window by one bit; at most TS sign changes in it are a start bit. -/
def rxSeekStep (c : Config) (e : Bool) (r : RxEngine) : RxEngine :=
  let slid : RxEngine :=
    { r with
      win := r.win.set r.wptr.toNat e
      wptr := nextPtr c r
      sum := BitVec.ofNat 17 (slidSum e r) }
  if startSeen c e r then
    { slid with state := .sample, acc := 0, cnt := 0, bitn := 0, byte := 0 }
  else slid

/-- The byte with the data bit just completed (rule R145): set where the sum reached T1. -/
def withDataBit (c : Config) (acc : Nat) (r : RxEngine) : Byte :=
  if c.oneThreshold ≤ acc then r.byte ||| (1#8 <<< r.bitn.toNat) else r.byte

/-- SAMPLE (rule R145): sum N bits per data bit, eight data bits, LSB first. The second part is the byte emitted, if
this step completes one. -/
def rxSampleStep (c : Config) (e : Bool) (r : RxEngine) : RxEngine × Option Byte :=
  let acc := r.acc.toNat + e.toNat
  if r.cnt.toNat + 1 < c.framesPerBit then
    ({ r with acc := BitVec.ofNat 17 acc, cnt := BitVec.ofNat 16 (r.cnt.toNat + 1) }, none)
  else if r.bitn.toNat < 7 then
    ({ r with acc := 0, cnt := 0, byte := withDataBit c acc r, bitn := BitVec.ofNat 4 (r.bitn.toNat + 1) }, none)
  else
    ({ r with acc := 0, cnt := 0, byte := 0, bitn := 0, state := .skip, skip := BitVec.ofNat 18 (skipLen c) },
      some (withDataBit c acc r))

/-- SKIP (rule R146): discard SKIP_LEN bits, then enter FILL with a cleared window (decision D28). -/
def rxSkipStep (c : Config) (r : RxEngine) : RxEngine :=
  if 1 < r.skip.toNat then { r with skip := BitVec.ofNat 18 (r.skip.toNat - 1) }
  else
    { r with
      state := .fill
      win := List.replicate c.framesPerBit false
      wptr := 0
      fill := 0
      sum := 0
      skip := 0 }

/-- One sign-change bit into the synchronizer (rule R142). -/
def rxDispatch (c : Config) (e : Bool) (r : RxEngine) : RxEngine × Option Byte :=
  match r.state with
  | .fill => (rxFillStep c e r, none)
  | .seek => (rxSeekStep c e r, none)
  | .sample => rxSampleStep c e r
  | .skip => (rxSkipStep c r, none)

/-- One sample into the receive engine (rules R141, R142, R150): the edge detector runs in every state. -/
def rxTake (c : Config) (v : Byte) (r : RxEngine) : RxEngine × Option Byte :=
  rxDispatch c (edge v r.prev) { r with prev := v.getLsbD 7 }

/-- `emit_rxo` (rule R147): the byte, if there is one, joins the end of rx_out. -/
def emitRxo (o : Option Byte) (s : State) : State := s.setRxOut (s.rxOut ++ o.toList)

/-! ## Receive transactions -/

/-- RXS SAMPLE (rule R150). -/
def execRxs (v : BitVec 8) (s : State) : Res :=
  onRxi (fun s => emitRxo (rxTake s.cfg v s.rx).2 (s.setRx (rxTake s.cfg v s.rx).1)) s

/-- RXE (rule R151): a partial byte is discarded, the receive engine is reset, rx_out is kept. -/
def execRxe (s : State) : Res := onRxi (rxEngineReset true) s

/-- ILLEGAL_RXI (rule R152): the word is consumed and ERR_RXI is set; it is no sample, and which reserved word it was is
recorded nowhere (rule R202). -/
def execIllegalRxi (_word : RxiWord) (s : State) : Res := onRxi (flag .errRxi) s

/-! ## Byte delivery -/

/-- The delivery step on rxo (rule R153): the oldest byte of rx_out leaves, if there is one. -/
def rxoDeliver (s : State) : State :=
  match s.rxOut with
  | [] => s
  | b :: bs => (s.setRxOut bs).setRxoOut (s.rxoOut ++ [b])

end Sys2Proof.Machine
end

