-- ==== Sys2Proof/Machine/Operands.lean ====
section
/-!
DEFINITION. Operand assembly (30_encoding.md rule R90): every field is unsigned and zero-extended, none is sign-extended,
scaled or shifted. BYTE, SAMPLE, IDX and WDATA are used at their own width.
-/

namespace Sys2Proof.Machine

/-- CPS × zext_32(SECONDS) in 32-bit arithmetic (rules R90, R111); rule R8(d) says that the product fits. -/
def secondsCount (c : Config) (seconds : BitVec 16) : BitVec 32 :=
  BitVec.ofNat 32 c.carrierCps * seconds.zeroExtend 32

/-- zext_32(CYCLES) (rules R90, R112). -/
def cyclesCount (cycles : BitVec 24) : BitVec 32 := cycles.zeroExtend 32

end Sys2Proof.Machine
end

