-- ==== Sys2Proof/Machine/Waveform.lean ====
section
/-!
DEFINITION. The pure functions that fix which samples each transmit command produces (40_tx_synth.md section 1, rules R100
to R106): the ToneSynthesizer's cycles and blocks, the FrameEncoder's frames, the carrier, and a command's sequence.
-/

namespace Sys2Proof.Machine

/-- `rep(n, L)`: the list `l` concatenated `n` times (rule R12). -/
def rep {α : Type} (n : Nat) (l : List α) : List α := (List.replicate n l).flatten

/-- `cycle(H)`: H samples at LOW, then H at HIGH (rule R101). -/
def cycle (c : Config) (h : Nat) : List Byte := rep h [low c] ++ rep h [high c]

/-- `block(bit)` (rule R102): REP1 ONE-tone cycles for a 1, REP0 ZERO-tone cycles for a 0. -/
def block (c : Config) (bit : Bool) : List Byte :=
  if bit then rep c.oneRepeat (cycle c (halfOne c)) else rep c.zeroRepeat (cycle c (halfZero c))

/-- `frame(b)` (rule R103): start bit 0, the data bits LSB first, the parity bit, two stop bits 1. -/
def frame (b : Byte) : List Bool :=
  [false, b.getLsbD 0, b.getLsbD 1, b.getLsbD 2, b.getLsbD 3, b.getLsbD 4, b.getLsbD 5, b.getLsbD 6, b.getLsbD 7,
    parity b, true, true]

/-- `frameword(b)` = {1, 1, p, b[7:0], 0}: frame position i in bit i (rule R103). -/
def frameword (b : Byte) : BitVec 12 := 1#1 ++ 1#1 ++ BitVec.ofBool (parity b) ++ b ++ 0#1

/-- `frame_samples(b)`: the blocks of the twelve frame bits in order (rule R104). -/
def frameSamples (c : Config) (b : Byte) : List Byte := (frame b).flatMap (block c)

/-- `carrier(k)`: k ONE-tone cycles (rule R105). -/
def carrier (c : Config) (k : Nat) : List Byte := rep k (cycle c (halfOne c))

/-- `seq(C)`: the samples of a transmit command (rule R106); a word that is no command, or that is no transmit word,
produces none. -/
def seq (c : Config) : Instr → List Byte
  | .txb b => frameSamples c b
  | .txc sec => carrier c (c.carrierCps * sec.toNat)
  | .txcc n => carrier c n.toNat
  | .illegalTxc _ => []
  | .rxs _ => []
  | .rxe => []
  | .illegalRxi _ => []
  | .csrr _ _ => []
  | .csrw _ _ => []

end Sys2Proof.Machine
end

