-- ==== Sys2Proof/Machine/Transmit.lean ====
section
/-!
DEFINITION. The transmit engine (40_tx_synth.md sections 2 and 3): one meaning per transmit transaction (rules R107 to R113)
and the sample-delivery step (rule R115).
-/

namespace Sys2Proof.Machine

/-! ## Transmit transactions -/

/-- The fields a TXB writes (rule R110): the frame, FRAME mode, every counter at 0. -/
def txStartFrame (b : Byte) : TxEngine where
  busy := true
  mode := .frame
  frame := frameword b
  bit := 0
  cyc := 0
  ph := false
  cnt := 0
  left := 0

/-- The fields a carrier command of `n` cycles writes where n is not 0 (rules R111, R112). -/
def txStartCarrier (n : BitVec 32) : TxEngine where
  busy := true
  mode := .carrier
  frame := 0
  bit := 0
  cyc := 0
  ph := false
  cnt := 0
  left := n

/-- A carrier command of `n` cycles: a zero count completes in its own step with no change (decision D33). -/
def startCarrier (n : BitVec 32) (s : State) : State :=
  if n = 0 then s else s.setTx (txStartCarrier n)

/-- TXB BYTE (rule R110). -/
def execTxb (b : BitVec 8) (s : State) : Res := onTxc (fun s => s.setTx (txStartFrame b)) s

/-- TXC SECONDS (rule R111). -/
def execTxc (seconds : BitVec 16) (s : State) : Res := onTxc (fun s => startCarrier (secondsCount s.cfg seconds) s) s

/-- TXCC CYCLES (rule R112). -/
def execTxcc (cycles : BitVec 24) (s : State) : Res := onTxc (startCarrier (cyclesCount cycles)) s

/-- ILLEGAL_TXC (rule R113): the word is consumed and ERR_TXC is set; which reserved word it was is recorded nowhere
(rule R201). -/
def execIllegalTxc (_word : TxcWord) (s : State) : Res := onTxc (flag .errTxc) s

/-! ## Sample delivery -/

/-- The tone of the current cycle (rules R23, R115): ONE in CARRIER mode, else the current frame bit's. -/
def txTone (t : TxEngine) : Bool :=
  match t.mode with
  | .carrier => true
  | .frame => t.frame.getLsbD t.bit.toNat

/-- H, the half-length of the current tone (rule R115). -/
def txHalf (c : Config) (t : TxEngine) : Nat := if txTone t then halfOne c else halfZero c

/-- R, the repeat count of the current tone (rule R115). -/
def txRepeat (c : Config) (t : TxEngine) : Nat := if txTone t then c.oneRepeat else c.zeroRepeat

/-- The txs data word (rules R63, R115): LOW in the first half of a cycle, HIGH in the second. -/
def txSample (c : Config) (t : TxEngine) : Byte := if t.ph then high c else low c

/-- Rule R115 once a carrier cycle is complete: the last one idles the engine. -/
def txEndCarrierCycle (t : TxEngine) : TxEngine :=
  if t.left = 1 then TxEngine.reset
  else { t with cnt := 0, ph := false, left := BitVec.ofNat 32 (t.left.toNat - 1) }

/-- Rule R115 once a cycle of a bit block is complete: the next cycle, the next bit, or idle after bit 11. -/
def txEndFrameCycle (c : Config) (t : TxEngine) : TxEngine :=
  if t.cyc.toNat + 1 < txRepeat c t then
    { t with cnt := 0, ph := false, cyc := BitVec.ofNat 8 (t.cyc.toNat + 1) }
  else if t.bit = 11 then TxEngine.reset
  else { t with cnt := 0, ph := false, cyc := 0, bit := BitVec.ofNat 4 (t.bit.toNat + 1) }

/-- The transmit fields after one delivery (rule R115). -/
def txAdvance (c : Config) (t : TxEngine) : TxEngine :=
  if t.cnt.toNat + 1 < txHalf c t then { t with cnt := BitVec.ofNat 32 (t.cnt.toNat + 1) }
  else if t.ph = false then { t with cnt := 0, ph := true }
  else
    match t.mode with
    | .carrier => txEndCarrierCycle t
    | .frame => txEndFrameCycle c t

/-- The delivery step on txs (rule R115): one sample while tx_busy = 1; while tx_busy = 0 no delivery step exists. -/
def txsDeliver (s : State) : State :=
  if txsValid s then
    (s.setTx (txAdvance s.cfg s.tx)).setTxsOut (s.txsOut ++ [txSample s.cfg s.tx])
  else s

end Sys2Proof.Machine
end

