-- ==== Sys2Proof/Machine/Dispatch.lean ====
section
/-!
DEFINITION. The dispatch of a decoded transaction to its meaning, one arm per row of spec/opcode_table.json.
-/

namespace Sys2Proof.Machine

def exec (i : Instr) (s : State) : Host.Outcome State Fault Refusal :=
  match i with
  -- 40_tx_synth.md
  | .txb b => Sys2Proof.Machine.execTxb b s
  | .txc n => Sys2Proof.Machine.execTxc n s
  | .txcc n => Sys2Proof.Machine.execTxcc n s
  | .illegalTxc w => Sys2Proof.Machine.execIllegalTxc w s
  -- 41_rx_decode.md
  | .rxs v => Sys2Proof.Machine.execRxs v s
  | .rxe => Sys2Proof.Machine.execRxe s
  | .illegalRxi w => Sys2Proof.Machine.execIllegalRxi w s
  -- 42_csr.md
  | .csrr x d => Sys2Proof.Machine.execCsrr x d s
  | .csrw x d => Sys2Proof.Machine.execCsrw x d s

end Sys2Proof.Machine
end

