-- ==== Sys2Proof/Machine/Turn.lean ====
section
/-!
DEFINITION. One turn of the machine (00_scope.md rule R13): one transfer on one port, one control-register access, or one
edge of the reset input (70_reset_and_hazards.md rule R220). A turn whose transfer is not enabled changes nothing but the
list of turns (60_exceptions.md rule R213, log 8).
-/

namespace Sys2Proof.Machine

/-- A turn of a port that carries transactions: the accepted transaction has its meaning. No transfer happens while the
reset input is asserted (rule R220), while the host offers nothing, or while the port is not ready (rule R61). -/
def transact (p : InPort) (s : State) : Res :=
  if s.rst then .next s
  else
    match accept p s with
    | some (i, s') => exec i s'
    | none => .next s

/-- A turn of a port the block delivers on (rules R115, R153); no transfer happens while the reset input is asserted. -/
def deliver (f : State → State) (s : State) : Res := .next (if s.rst then s else f s)

/-- One turn. The reset input's fields take their values at its release (rule R220, log 7). -/
def runTurn (t : Turn) (s : State) : Res :=
  match t with
  | .txc => transact .txc s
  | .txs => deliver txsDeliver s
  | .rxi => transact .rxi s
  | .rxo => deliver rxoDeliver s
  | .csr => transact .csr s
  | .resetAssert => .next (s.setRst true)
  | .resetRelease => .next (if s.rst then hardwareReset s else s)

/-- The next turn of the list, taken off it. With no turn left no transfer is enabled and the block holds its state (rule
R213). A block whose parameters are not legal is refused (rule R8). -/
def takeTurn (s : State) : Res :=
  if legal s.cfg then
    match s.turns with
    | [] => .next s
    | t :: ts => runTurn t (s.setTurns ts)
  else .refused .illegalConfig

end Sys2Proof.Machine
end

