-- ==== Sys2Proof/Machine/Step.lean ====
section
/-!
DEFINITION. The step function, and the placing of one word where the next step takes it.
-/

namespace Sys2Proof.Machine

/-- One step of the machine: its next turn (rule R13). -/
def step (s : State) : Host.Outcome State Fault Refusal := takeTurn s

/-- `s` with the word `w` of a row of `nbits` bits offered on that row's port and the turn of that port next, so that the
next step takes exactly it. The block runs no program (rule R21): the host offers every word from outside (log 2). -/
def State.withFetchWord (s : State) (nbits w : Nat) : State :=
  match tablePortWord nbits w with
  | some p => placeWord p s
  | none => s

end Sys2Proof.Machine
end

