-- ==== Sys2Proof/Machine/Script.lean ====
section
/-!
DEFINITION. The command script of the examples (30_encoding.md rules R94 and R95), as syntax: what each line transfers, and
what each pseudo-instruction expands to. It only names transactions (decision D27), and no meaning reads it: a host that
follows a script offers its words in this order, and when each transfers is the interleaving rule R74 leaves open.
-/

namespace Sys2Proof.Machine

/-- A line of a script (rule R94). -/
inductive Line where
  | txb (byte : BitVec 8)
  | txc (seconds : BitVec 16)
  | txcc (cycles : BitVec 24)
  /-- Any transmit word, raw. -/
  | txw (word : TxcWord)
  | rxs (sample : BitVec 8)
  | rxe
  /-- Any receive word, raw. -/
  | rxw (word : RxiWord)
  | csrr (reg : BitVec 3)
  | csrw (reg : BitVec 3) (value : CsrWord)
  /-- `n` deliveries on txs: no word. -/
  | pullTxs (n : Nat)
  /-- `n` deliveries on rxo: no word. -/
  | pullRxo (n : Nat)
  deriving DecidableEq, Repr

/-- The word a line offers, if it offers one (rule R94's column "encoding"). A CSRR's ignored WDATA is 0. -/
def Line.word : Line → Option PortWord
  | .txb b => some (encode (.txb b))
  | .txc n => some (encode (.txc n))
  | .txcc n => some (encode (.txcc n))
  | .txw w => some (.txc w)
  | .rxs v => some (encode (.rxs v))
  | .rxe => some (encode .rxe)
  | .rxw w => some (.rxi w)
  | .csrr r => some (encode (.csrr r 0))
  | .csrw r d => some (encode (.csrw r d))
  | .pullTxs _ => none
  | .pullRxo _ => none

/-- The pseudo-instructions (rule R95). -/
inductive Pseudo where
  | leader (seconds : BitVec 16)
  | trailer (seconds : BitVec 16)
  | txbytes (bytes : List Byte)
  | encode (bytes : List Byte) (leader trailer : BitVec 16)
  | rxsamples (samples : List Byte)
  | txReset
  | rxReset
  | clearErrors
  deriving DecidableEq, Repr

/-- What a pseudo-instruction expands to (rule R95). -/
def Pseudo.expand : Pseudo → List Line
  | .leader n => [.txc n]
  | .trailer n => [.txc n]
  | .txbytes bs => bs.map .txb
  | .encode bs l t => .txc l :: bs.map .txb ++ [.txc t]
  | .rxsamples vs => vs.map .rxs
  | .txReset => [.csrw 0 0x1]
  | .rxReset => [.csrw 0 0x2]
  | .clearErrors => [.csrw 1 0x300]

/-- The words a script offers, in order. -/
def scriptWords (ls : List Line) : List PortWord := ls.filterMap Line.word

end Sys2Proof.Machine
end

