-- ==== Sys2Proof/Machine/Stream.lean ====
section
/-!
DEFINITION. The pure functions over whole streams: the waveform of an encoded byte stream (40_tx_synth.md rule R117), the
sign-change stream (41_rx_decode.md rule R141), the bytes a sign-change stream decodes to (rule R155), and the samples a
transmit engine still has to deliver (rules R106, R115).
-/

namespace Sys2Proof.Machine

/-- The WaveformWriter's samples (rule R117): leader, frames, trailer. -/
def encodeSamples (c : Config) (leader : Nat) (bytes : List Byte) (trailer : Nat) : List Byte :=
  carrier c (c.carrierCps * leader) ++ bytes.flatMap (frameSamples c) ++ carrier c (c.carrierCps * trailer)

/-- The sign-change bits of a sample stream whose previous polarity is `prev` (rules R141, R155). -/
def edges (prev : Bool) : List Byte → List Bool
  | [] => []
  | v :: vs => (v.getLsbD 7 ^^ prev) :: edges (v.getLsbD 7) vs

/-- `seek(W, E)` (rule R155): what is left of the stream once a start bit is detected; none if the stream ends before. -/
def seekStart (c : Config) (win : List Bool) : List Bool → Option (List Bool)
  | [] => none
  | e :: rest =>
    if ones (win.drop 1 ++ [e]) ≤ c.startThreshold then some rest
    else seekStart c (win.drop 1 ++ [e]) rest

/-- The byte of `sample(R)` (rule R155): bit k is 1 where elements kN to kN+N-1 hold at least T1 ones. -/
def dataByte (c : Config) (r : List Bool) : Byte :=
  BitVec.ofNat 8 (((List.range 8).map fun k =>
    if c.oneThreshold ≤ ones ((r.drop (k * c.framesPerBit)).take c.framesPerBit) then 2 ^ k else 0).sum)

/-- `fill(E)` (rule R155) for at most `rounds` bytes: fill the window, seek a start bit, sample a byte, skip, and again. -/
def decodeRounds (c : Config) : Nat → List Bool → List Byte
  | 0, _ => []
  | rounds + 1, es =>
    if es.length < c.framesPerBit then []
    else
      match seekStart c (es.take c.framesPerBit) (es.drop c.framesPerBit) with
      | none => []
      | some r =>
        if r.length < 8 * c.framesPerBit then []
        else dataByte c r :: decodeRounds c rounds (r.drop (8 * c.framesPerBit + skipLen c))

/-- `dec(E) = fill(E)` (rule R155). A round takes at least one element, so as many rounds as elements are enough. -/
def dec (c : Config) (es : List Bool) : List Byte := decodeRounds c es.length es

/-- What is left of the half-cycle and the cycle a busy engine stands in (rule R115). -/
def txRestOfCycle (c : Config) (h : Nat) (t : TxEngine) : List Byte :=
  if t.ph then rep (h - t.cnt.toNat) [high c]
  else rep (h - t.cnt.toNat) [low c] ++ rep h [high c]

/-- The blocks of the frame bits from position `i` on (rule R104). -/
def blocksFrom (c : Config) (f : BitVec 12) (i : Nat) : List Byte :=
  (List.range' i (frameLen - i)).flatMap fun k => block c (f.getLsbD k)

/-- The samples the transmit engine still has to deliver (rules R106, R115); none while it is idle. -/
def txRest (c : Config) (t : TxEngine) : List Byte :=
  if t.busy then
    match t.mode with
    | .carrier => txRestOfCycle c (halfOne c) t ++ carrier c (t.left.toNat - 1)
    | .frame =>
      if t.frame.getLsbD t.bit.toNat then
        txRestOfCycle c (halfOne c) t ++ rep (c.oneRepeat - 1 - t.cyc.toNat) (cycle c (halfOne c))
          ++ blocksFrom c t.frame (t.bit.toNat + 1)
      else
        txRestOfCycle c (halfZero c) t ++ rep (c.zeroRepeat - 1 - t.cyc.toNat) (cycle c (halfZero c))
          ++ blocksFrom c t.frame (t.bit.toNat + 1)
  else []

end Sys2Proof.Machine
end

