-- ==== Sys2Proof/Safety.lean ====
section
/-!
DEFINITION. What the statements speak of beside the machine itself: the invariants the spec gives the two engines
(10_state.md rules R25, R32 to R36), what a safe step is, which turns reset an engine, and which transaction a turn accepts.
-/

namespace Sys2Proof.Machine

/-! ## Invariants -/

/-- The transmit engine's invariants, sentence by sentence as rule R25 gives them. -/
abbrev TxInv (c : Config) (t : TxEngine) : Prop :=
  (t.busy = false → t = TxEngine.reset)
    ∧ (t.busy = true → t.mode = .frame → t.bit.toNat ≤ 11 ∧ t.frame.getLsbD 0 = false)
    ∧ (t.busy = true → t.mode = .carrier → 1 ≤ t.left.toNat)
    ∧ (t.busy = true → t.cnt.toNat < txHalf c t ∧ t.cyc.toNat < txRepeat c t)

/-- The window's invariants: its length and index (rule R32), the running sum (rule R33), the cells FILL has not reached
(rule R32), the write index in FILL (rule R143), and a full window in every other state. -/
abbrev WindowInv (c : Config) (r : RxEngine) : Prop :=
  r.win.length = c.framesPerBit
    ∧ r.wptr.toNat < c.framesPerBit
    ∧ r.sum.toNat = ones r.win
    ∧ (r.state = .fill → r.fill.toNat < c.framesPerBit ∧ r.wptr.toNat = r.fill.toNat
        ∧ ∀ e ∈ r.win.drop r.fill.toNat, e = false)
    ∧ (r.state ≠ .fill → r.fill.toNat = c.framesPerBit)

/-- The sampler's and the resynchronizer's invariants: the ranges of rules R34 and R35, and 0 outside the state that uses
a field. -/
abbrev SamplerInv (c : Config) (r : RxEngine) : Prop :=
  r.cnt.toNat < c.framesPerBit
    ∧ r.acc.toNat ≤ r.cnt.toNat
    ∧ r.bitn.toNat ≤ 7
    ∧ (r.state ≠ .sample → r.acc = 0 ∧ r.cnt = 0 ∧ r.bitn = 0 ∧ r.byte = 0)
    ∧ (r.state = .skip → 1 ≤ r.skip.toNat ∧ r.skip.toNat ≤ skipLen c)
    ∧ (r.state ≠ .skip → r.skip = 0)

/-- The receive engine's invariants, with rx_out's capacity (rule R36). -/
abbrev RxInv (c : Config) (r : RxEngine) (out : List Byte) : Prop :=
  WindowInv c r ∧ SamplerInv c r ∧ out.length ≤ c.outDepth

/-- A state a run can reach: a legal block with both engines' invariants. -/
abbrev State.Inv (s : State) : Prop := legal s.cfg = true ∧ TxInv s.cfg s.tx ∧ RxInv s.cfg s.rx s.rxOut

/-! ## Safe steps -/

/-- A step is safe when it answers a next state: the block has no traps (rule R200), and it is refused only where the
parameters are not legal (rule R8). -/
def Safe (r : Res) : Prop := ∃ t, r = .next t

/-! ## What a turn does -/

/-- The transaction the next turn of `s` accepts on port `p`, if it accepts one (rules R61, R107, R140). -/
def accepted (p : InPort) (s : State) : Option Instr :=
  if s.rst then none else (accept p s).map Prod.fst

/-- A control-register write that pulses TX_RST (rules R40, R221). -/
def isTxRst : Instr → Bool
  | .csrw idx d => decide (idx = 0) && d.getLsbD 0
  | _ => false

/-- A control-register write that pulses RX_RST (rules R40, R222). -/
def isRxRst : Instr → Bool
  | .csrw idx d => decide (idx = 0) && d.getLsbD 1
  | _ => false

/-- A host that neither releases a reset nor pulses TX_RST in any turn or request still to come. -/
abbrev NoTxReset (s : State) : Prop :=
  (∀ u ∈ s.turns, u ≠ .resetRelease) ∧ (s.csrIn.all fun q => !isTxRst (decodeCsr q)) = true

/-- A host that neither releases a reset nor pulses RX_RST in any turn or request still to come. -/
abbrev NoRxReset (s : State) : Prop :=
  (∀ u ∈ s.turns, u ≠ .resetRelease) ∧ (s.csrIn.all fun q => !isRxRst (decodeCsr q)) = true

/-- `n` delivery steps on txs, with nothing in between (rule R115). -/
def deliverN : Nat → State → State
  | 0, s => s
  | n + 1, s => deliverN n (txsDeliver s)

/-- The RXS word of a sample (rule R86). -/
def rxsWord (v : Byte) : RxiWord := 0x00#8 ++ v

/-- The samples `vs` taken one by one by the receive engine, where no stall holds one back (rules R141, R142). -/
def takeAll (c : Config) (r : RxEngine) : List Byte → RxEngine
  | [] => r
  | v :: vs => takeAll c (rxTake c v r).1 vs

end Sys2Proof.Machine
end

