-- ==== Sys2Proof/Certificates/Slice0/Obligations.lean ====
section
/-!
DEFINITION. The statements for the provers, from the numbered rules of spec/. A run is `Host.Core.run Sys2Proof.core`; the
interleaving rule R74 leaves open is the list of turns in the state, so a statement about every state is one about every
interleaving (log 1).
-/

open Sys2Proof Sys2Proof.Machine

/-! ## Decoding and encoding (30_encoding.md) -/

/-- Every well-formed instruction comes back from its own word: no bit of an operand is lost, at any value (rules R80, R85,
R89 for the columns of the words). -/
def Obligations.DecodeOfEncode : Prop :=
  ∀ i : Instr, i.wellFormed = true → decode (encode i) = i ∧ (encode i).port = i.port

/-- Every word of every port comes back from its instruction, which is well formed and of that port (rule R91, totality). -/
def Obligations.EncodeOfDecode : Prop :=
  ∀ w : PortWord, encode (decode w) = w ∧ (decode w).wellFormed = true ∧ (decode w).port = w.port

/-- Rules R91 and R89: decoding is total and unambiguous. The match and mask pairs of a port are pairwise disjoint, each transmit
word decodes by OP and then by the reserved-zero test, and a word no row matches is its port's ILLEGAL form. A request is split at WE, IDX and WDATA, and CSRR ignores WDATA. -/
def Obligations.EveryWordHasOneDecoding : Prop :=
  (∀ w : TxcWord,
    let b := w &&& 0xFFFFFF00#32 = 0x10000000#32
    let n := w &&& 0xFFFF0000#32 = 0x20000000#32
    let k := w &&& 0xFF000000#32 = 0x30000000#32
    ¬ (b ∧ n) ∧ ¬ (b ∧ k) ∧ ¬ (n ∧ k)
      ∧ (b ↔ w.extractLsb' 28 4 = 1#4 ∧ w.extractLsb' 8 20 = 0#20)
      ∧ (n ↔ w.extractLsb' 28 4 = 2#4 ∧ w.extractLsb' 16 12 = 0#12)
      ∧ (k ↔ w.extractLsb' 28 4 = 3#4 ∧ w.extractLsb' 24 4 = 0#4)
      ∧ (b ↔ ∃ x, decode (.txc w) = .txb x) ∧ (n ↔ ∃ x, decode (.txc w) = .txc x)
      ∧ (k ↔ ∃ x, decode (.txc w) = .txcc x) ∧ (¬ b ∧ ¬ n ∧ ¬ k ↔ decode (.txc w) = .illegalTxc w))
  ∧ (∀ w : RxiWord,
    let v := w &&& 0xFF00#16 = 0x0000#16
    let e := w &&& 0xFFFF#16 = 0x0100#16
    ¬ (v ∧ e) ∧ (v ↔ ∃ x, decode (.rxi w) = .rxs x) ∧ (e ↔ decode (.rxi w) = .rxe)
      ∧ (¬ v ∧ ¬ e ↔ decode (.rxi w) = .illegalRxi w))
  ∧ (∀ q : CsrReq,
    let r := q &&& 0x800000000#36 = 0x000000000#36
    let m := q &&& 0x800000000#36 = 0x800000000#36
    ¬ (r ∧ m) ∧ (r ∨ m) ∧ (r ↔ q.getLsbD 35 = false) ∧ (m ↔ q.getLsbD 35 = true)
      ∧ (r ↔ decode (.csr q) = .csrr (q.extractLsb' 32 3) (q.extractLsb' 0 32))
      ∧ (m ↔ decode (.csr q) = .csrw (q.extractLsb' 32 3) (q.extractLsb' 0 32)))
  ∧ (∀ (x : BitVec 3) (d d' : CsrWord) (s : State), exec (.csrr x d) s = exec (.csrr x d') s)

/-- A few words written out from the encodings of rules R81 to R89. -/
def Obligations.SampleWordsDecode : Prop :=
  decodeTableWord 32 0x10000041 = some (.txb 0x41) ∧ decodeTableWord 32 0x2000FFFF = some (.txc 65535)
    ∧ decodeTableWord 32 0x30FFFFFF = some (.txcc 16777215) ∧ decodeTableWord 32 0x10000100 = some (.illegalTxc 0x10000100)
    ∧ decodeTableWord 16 0x00FF = some (.rxs 0xFF) ∧ decodeTableWord 16 0x0100 = some .rxe
    ∧ decodeTableWord 16 0x0101 = some (.illegalRxi 0x0101) ∧ decodeTableWord 40 0x100000000 = some (.csrr 1 0)
    ∧ decodeTableWord 40 0x800000003 = some (.csrw 0 3)

/-- The command script of rules R94 and R95: a line's word is the operand over its constant and decodes to the line's
transaction, at every operand; pulls offer no word; and each pseudo-instruction offers exactly the words of its expansion. -/
def Obligations.ScriptLinesAreTheirTransactions : Prop :=
  (∀ b, (Line.txb b).word = some (.txc (0x10000000#32 ||| b.zeroExtend 32))
    ∧ decode (.txc (0x10000000#32 ||| b.zeroExtend 32)) = .txb b)
  ∧ (∀ n, (Line.txc n).word = some (.txc (0x20000000#32 ||| n.zeroExtend 32))
    ∧ decode (.txc (0x20000000#32 ||| n.zeroExtend 32)) = .txc n)
  ∧ (∀ n, (Line.txcc n).word = some (.txc (0x30000000#32 ||| n.zeroExtend 32))
    ∧ decode (.txc (0x30000000#32 ||| n.zeroExtend 32)) = .txcc n)
  ∧ (∀ v, (Line.rxs v).word = some (.rxi (0x0000#16 ||| v.zeroExtend 16))
    ∧ decode (.rxi (0x0000#16 ||| v.zeroExtend 16)) = .rxs v)
  ∧ Line.rxe.word = some (.rxi 0x0100) ∧ decode (.rxi 0x0100) = .rxe
  ∧ (∀ w, (Line.txw w).word = some (.txc w)) ∧ (∀ w, (Line.rxw w).word = some (.rxi w))
  ∧ (∀ r, ∃ q : CsrReq, (Line.csrr r).word = some (.csr q) ∧ q.getLsbD 35 = false ∧ q.extractLsb' 32 3 = r
    ∧ decode (.csr q) = .csrr r 0)
  ∧ (∀ r d, ∃ q : CsrReq, (Line.csrw r d).word = some (.csr q) ∧ q.getLsbD 35 = true ∧ q.extractLsb' 32 3 = r
    ∧ q.extractLsb' 0 32 = d ∧ decode (.csr q) = .csrw r d)
  ∧ (∀ n, (Line.pullTxs n).word = none ∧ (Line.pullRxo n).word = none)
  ∧ (∀ n, scriptWords (Pseudo.leader n).expand = [.txc (0x2000#16 ++ n)]
    ∧ scriptWords (Pseudo.trailer n).expand = [.txc (0x2000#16 ++ n)])
  ∧ (∀ bs, scriptWords (Pseudo.txbytes bs).expand = bs.map fun b => .txc (0x100000#24 ++ b))
  ∧ (∀ bs l t, scriptWords (Pseudo.encode bs l t).expand
    = .txc (0x2000#16 ++ l) :: (bs.map fun b => .txc (0x100000#24 ++ b)) ++ [.txc (0x2000#16 ++ t)])
  ∧ (∀ vs, scriptWords (Pseudo.rxsamples vs).expand = vs.map fun v => .rxi (rxsWord v))
  ∧ scriptWords Pseudo.txReset.expand = [.csr 0x800000001] ∧ scriptWords Pseudo.rxReset.expand = [.csr 0x800000002]
  ∧ scriptWords Pseudo.clearErrors.expand = [.csr 0x900000300]

/-! ## Parameters (00_scope.md) -/

/-- Rule R8: which parameter sets are legal, clause by clause; every other configuration is refused, by every step and every
transaction; and where LOW[7] = 0 and HIGH[7] = 1 fails, no sign change is seen inside a transmitted cycle. -/
def Obligations.IllegalConfigurationsAreRefused : Prop :=
  (∀ c : Config, legal c = true ↔
    (0 < c.sampleRate ∧ 0 < c.oneFreq ∧ 0 < c.zeroFreq ∧ 1 ≤ halfOne c ∧ 1 ≤ halfZero c)
    ∧ (c.amplitude % 2 = 0 ∧ (0 : Int) ≤ (c.center : Int) - (c.amplitude : Int) / 2
      ∧ (c.center : Int) - (c.amplitude : Int) / 2 ≤ (c.center : Int) + (c.amplitude : Int) / 2
      ∧ (c.center : Int) + (c.amplitude : Int) / 2 ≤ 255)
    ∧ (1 ≤ c.oneRepeat ∧ c.oneRepeat ≤ 255 ∧ 1 ≤ c.zeroRepeat ∧ c.zeroRepeat ≤ 255
      ∧ 1 ≤ c.framesPerBit ∧ c.framesPerBit ≤ 65535 ∧ c.startThreshold ≤ c.framesPerBit
      ∧ c.oneThreshold ≤ c.framesPerBit ∧ 1 ≤ c.outDepth)
    ∧ c.carrierCps * 65535 ≤ 2 ^ 32 - 1 ∧ c.sampleRate ≤ 2 ^ 32 - 1)
  ∧ (∀ s : State, legal s.cfg = false →
    step s = .refused .illegalConfig ∧ ∀ i, exec i s = .refused .illegalConfig)
  ∧ (∀ c : Config, legal c = true → ¬ ((low c).getLsbD 7 = false ∧ (high c).getLsbD 7 = true) →
    ∀ (h : Nat) (prev : Bool), ∀ e ∈ (edges prev (cycle c h)).drop 1, e = false)

/-- The block has no traps (rule R200): with legal parameters every step and every transaction answers a next state, and
no step changes a parameter (rule R6, "cannot be changed at run time"). -/
def Obligations.LegalBlocksNeverStop : Prop :=
  ∀ s : State, legal s.cfg = true →
    (∃ t, step s = .next t ∧ t.cfg = s.cfg) ∧ ∀ i, ∃ t, exec i s = .next t ∧ t.cfg = s.cfg

/-- Rule R7: the derived quantities, as the source writes them and at the defaults. -/
def Obligations.DerivedQuantities : Prop :=
  (∀ c : Config, halfOne c = c.sampleRate / c.oneFreq / 2 ∧ halfZero c = c.sampleRate / c.zeroFreq / 2
    ∧ cycOne c = 2 * halfOne c ∧ cycZero c = 2 * halfZero c ∧ blkOne c = c.oneRepeat * cycOne c
    ∧ blkZero c = c.zeroRepeat * cycZero c
    ∧ (legal c = true → ((low c).toNat : Int) = (c.center : Int) - (c.amplitude : Int) / 2
      ∧ (high c).toNat = c.center + c.amplitude / 2 ∧ skipLen c = 3 * c.framesPerBit - 1))
  ∧ halfOne Config.default = 2 ∧ halfZero Config.default = 4 ∧ cycOne Config.default = 4 ∧ cycZero Config.default = 8
  ∧ blkOne Config.default = 32 ∧ blkZero Config.default = 32 ∧ low Config.default = 64 ∧ high Config.default = 192
  ∧ frameLen = 12 ∧ skipLen Config.default = 95

/-! ## Reset (10_state.md, 70_reset_and_hazards.md) -/

/-- Rule R45: every field's value after a hardware reset. -/
def Obligations.ResetValues : Prop :=
  ∀ c : Config, let s := State.resetWith c
    (s.tx.busy = false ∧ s.tx.mode = .frame ∧ s.tx.frame = 0 ∧ s.tx.bit = 0 ∧ s.tx.cyc = 0 ∧ s.tx.ph = false
      ∧ s.tx.cnt = 0 ∧ s.tx.left = 0)
    ∧ (s.rx.prev = false ∧ s.rx.state = .fill ∧ s.rx.win = List.replicate c.framesPerBit false ∧ s.rx.wptr = 0
      ∧ s.rx.fill = 0 ∧ s.rx.sum = 0 ∧ s.rx.acc = 0 ∧ s.rx.cnt = 0 ∧ s.rx.bitn = 0 ∧ s.rx.byte = 0 ∧ s.rx.skip = 0)
    ∧ s.rxOut = [] ∧ s.errTxc = false ∧ s.errRxi = false ∧ csrRead 0 s = 0x00000000#32 ∧ csrRead 1 s = 0x00000000#32

/-- The reset input, turn by turn, each with its whole next state: the assertion, a turn while the input is asserted, the
release, and a release without an assertion. That no transfer happens and what the release gives is rule R220; that the
input has two turns, that while it is asserted the fields keep what they held, that the release leaves the host's streams,
the deliveries and the parameters alone, and that a release without an assertion does nothing is the model's choice (log 7). -/
def Obligations.HardwareReset : Prop :=
  ∀ (s : State) (u : Turn) (us : List Turn), legal s.cfg = true → s.turns = u :: us →
    (s.rst = false → u = .resetAssert → step s = .next { s with turns := us, rst := true })
    ∧ (s.rst = true → u ≠ .resetRelease → step s = .next { s with turns := us })
    ∧ (s.rst = true → u = .resetRelease →
        let t := { s with
          turns := us, rst := false, tx := TxEngine.reset, rx := RxEngine.reset s.cfg.framesPerBit, rxOut := []
          errTxc := false, errRxi := false }
        step s = .next t ∧ csrRead 0 t = 0 ∧ csrRead 1 t = 0 ∧ txcReady t = true ∧ rxiReady t = true)
    ∧ (s.rst = false → u = .resetRelease → step s = .next { s with turns := us })

/-- Rule R220: from the assertion of the reset input to its release no port transfers a word, a sample, a byte or a
response, whatever turns come in between; the input is asserted all that time; and at the release every field of the block
holds its reset value. -/
def Obligations.NoTransferUntilTheRelease : Prop :=
  ∀ (s : State) (vs us : List Turn), legal s.cfg = true → (∀ u ∈ vs, u ≠ .resetRelease) →
    s.turns = .resetAssert :: vs ++ .resetRelease :: us →
    (∀ n t, 1 ≤ n → n ≤ vs.length + 1 → Host.Core.run Sys2Proof.core n s = .next t →
      t.rst = true ∧ t.txcIn = s.txcIn ∧ t.rxiIn = s.rxiIn ∧ t.csrIn = s.csrIn
        ∧ t.txsOut = s.txsOut ∧ t.rxoOut = s.rxoOut ∧ t.csrOut = s.csrOut)
    ∧ ∃ t, Host.Core.run Sys2Proof.core (vs.length + 2) s = .next t ∧ t.rst = false
      ∧ t.txcIn = s.txcIn ∧ t.rxiIn = s.rxiIn ∧ t.csrIn = s.csrIn
      ∧ t.txsOut = s.txsOut ∧ t.rxoOut = s.rxoOut ∧ t.csrOut = s.csrOut
      ∧ t.tx = TxEngine.reset ∧ t.rx = RxEngine.reset s.cfg.framesPerBit ∧ t.rxOut = []
      ∧ t.errTxc = false ∧ t.errRxi = false ∧ csrRead 0 t = 0x00000000#32 ∧ csrRead 1 t = 0x00000000#32

/-- Rule R223: after the hardware reset txc and rxi are ready, and the two clean-up writes may come in either order; here
for every two words written to CTRL and STATUS. -/
def Obligations.CleanUpWritesCommute : Prop :=
  (∀ c : Config, legal c = true → txcReady (State.resetWith c) = true ∧ rxiReady (State.resetWith c) = true)
  ∧ ∀ (s : State) (d e : CsrWord), legal s.cfg = true → ∃ a b t,
    exec (.csrw 1 d) s = .next a ∧ exec (.csrw 0 e) a = .next t
      ∧ exec (.csrw 0 e) s = .next b ∧ exec (.csrw 1 d) b = .next t
      ∧ (d = 0x300 → e = 0x3 → t.errTxc = false ∧ t.errRxi = false ∧ t.tx = TxEngine.reset
        ∧ t.rx = RxEngine.reset s.cfg.framesPerBit ∧ t.rxOut = [])

/-- Every legal block is, right after reset, in a state that meets the invariants. -/
def Obligations.ResetMeetsInvariants : Prop :=
  ∀ c : Config, legal c = true → (State.resetWith c).Inv

/-! ## The transmit engine (40_tx_synth.md) -/

/-- Rule R103: the frame of every byte, its parity bit, the frame packed as a 12-bit value with position i in bit i, and
the order in which those bits are sent. -/
def Obligations.FrameOfAByte : Prop :=
  (∀ (c : Config) (b : Byte), frameSamples c b = (List.range 12).flatMap fun i => block c ((frameword b).getLsbD i))
  ∧ ∀ b : Byte, (frame b).length = 12 ∧ parity b = (b.getLsbD 0 ^^ b.getLsbD 1 ^^ b.getLsbD 2 ^^ b.getLsbD 3
      ^^ b.getLsbD 4 ^^ b.getLsbD 5 ^^ b.getLsbD 6 ^^ b.getLsbD 7)
    ∧ (∀ i < 12, (frameword b).getLsbD i = (frame b).getD i false)
    ∧ frameword b = 0xC00#12 ||| ((BitVec.ofBool (parity b)).zeroExtend 12 <<< 9) ||| (b.zeroExtend 12 <<< 1)
    ∧ (frame b).getD 0 true = false ∧ (∀ k < 8, (frame b).getD (k + 1) false = b.getLsbD k)
    ∧ (frame b).getD 9 false = parity b ∧ (frame b).getD 10 false = true ∧ (frame b).getD 11 false = true

/-- Rules R104 and R105: a frame's waveform and a carrier, and their lengths; at the defaults every frame is 384 samples and
a carrier of `n` seconds is `n` times the sample rate. -/
def Obligations.WaveformLengths : Prop :=
  (∀ (c : Config) (b : Byte), frameSamples c b = ((frame b).map (block c)).flatten
    ∧ (frameSamples c b).length = (frame b).count true * blkOne c + (frame b).count false * blkZero c
    ∧ (frame b).count true + (frame b).count false = 12)
  ∧ (∀ (c : Config) (k : Nat), carrier c k = (List.replicate k (cycle c (halfOne c))).flatten
    ∧ (carrier c k).length = k * cycOne c)
  ∧ (∀ b : Byte, (frameSamples Config.default b).length = 384)
  ∧ (∀ n : Nat, (carrier Config.default (Config.default.carrierCps * n)).length = n * Config.default.sampleRate)

/-- Rule R118: the lengths of the tone cycles, and when the two bit blocks are equally long. -/
def Obligations.LengthLaws : Prop :=
  (∀ c : Config, (cycle c (halfOne c)).length = c.sampleRate / c.oneFreq / 2 * 2
    ∧ (cycle c (halfZero c)).length = c.sampleRate / c.zeroFreq / 2 * 2
    ∧ (block c true).length = blkOne c ∧ (block c false).length = blkZero c
    ∧ (blkOne c = blkZero c ↔ c.oneRepeat * halfOne c = c.zeroRepeat * halfZero c))
  ∧ (cycle Config.default (halfOne Config.default)).length = 4
  ∧ (cycle Config.default (halfZero Config.default)).length = 8
  ∧ blkOne Config.default = blkZero Config.default
  ∧ (let c := { Config.default with sampleRate := 8000 }
    halfOne c = 1 ∧ halfZero c = 3 ∧ blkOne c = 16 ∧ blkZero c = 24)

/-- Rules R81 and R110: TXB. Its words, its effect on an idle engine (every other field unchanged), STATUS, the samples it
leaves to deliver, and the rule's corner cases. -/
def Obligations.TransmitByte : Prop :=
  (∀ w : TxcWord, w.extractLsb' 28 4 = 1#4 ∧ w.extractLsb' 8 20 = 0#20 ↔ w &&& 0xFFFFFF00#32 = 0x10000000#32)
  ∧ (∀ w : TxcWord, w &&& 0xFFFFFF00#32 = 0x10000000#32 → decode (.txc w) = .txb (w.extractLsb' 0 8))
  ∧ (∀ (b : Byte) (s : State), legal s.cfg = true → s.tx.busy = false →
    let f := 1#1 ++ 1#1 ++ BitVec.ofBool (parity b) ++ b ++ 0#1
    let t := { s with tx :=
      { busy := true, mode := .frame, frame := f, bit := 0, cyc := 0, ph := false, cnt := 0, left := 0 } }
    exec (.txb b) s = .next t ∧ statusWord t = statusWord s ||| 1 ∧ txRest t.cfg t.tx = frameSamples t.cfg b)
  ∧ frameword 0x00 = 0xC00 ∧ frameword 0xFF = 0xDFE ∧ frameword 0x01 = 0xE02 ∧ frameword 0x41 = 0xC82
  ∧ frame 0x41 = [false, true, false, false, false, false, false, true, false, false, true, true]
  ∧ (frameSamples Config.default 0x41).length = 384

/-- Rules R82 and R111: TXC. A zero count changes nothing; any other count starts a carrier of CPS × SECONDS cycles, which
fits 32 bits (every other field unchanged). -/
def Obligations.TransmitCarrierSeconds : Prop :=
  (∀ w : TxcWord, w.extractLsb' 28 4 = 2#4 ∧ w.extractLsb' 16 12 = 0#12 ↔ w &&& 0xFFFF0000#32 = 0x20000000#32)
  ∧ (∀ w : TxcWord, w &&& 0xFFFF0000#32 = 0x20000000#32 → decode (.txc w) = .txc (w.extractLsb' 0 16))
  ∧ (∀ (n : BitVec 16) (s : State), legal s.cfg = true → s.tx.busy = false →
    let k := s.cfg.carrierCps * n.toNat
    let t := { s with tx :=
      { busy := true, mode := .carrier, frame := 0, bit := 0, cyc := 0, ph := false, cnt := 0, left := BitVec.ofNat 32 k } }
    k < 2 ^ 32 ∧ (k = 0 → exec (.txc n) s = .next s)
      ∧ (k ≠ 0 → exec (.txc n) s = .next t ∧ statusWord t = statusWord s ||| 1 ∧ txRest t.cfg t.tx = carrier t.cfg k))
  ∧ secondsCount Config.default 65535 = 157284000 ∧ secondsCount Config.default 5 = 12000
  ∧ (carrier Config.default 12000).length = 48000

/-- Rules R83 and R112: TXCC. A zero count changes nothing; any other count starts a carrier of CYCLES cycles (every other
field unchanged); and TXCC of CPS × s cycles produces the samples of TXC of s seconds. -/
def Obligations.TransmitCarrierCycles : Prop :=
  (∀ w : TxcWord, w.extractLsb' 28 4 = 3#4 ∧ w.extractLsb' 24 4 = 0#4 ↔ w &&& 0xFF000000#32 = 0x30000000#32)
  ∧ (∀ w : TxcWord, w &&& 0xFF000000#32 = 0x30000000#32 → decode (.txc w) = .txcc (w.extractLsb' 0 24))
  ∧ (∀ (n : BitVec 24) (s : State), legal s.cfg = true → s.tx.busy = false →
    let t := { s with tx :=
      { busy := true, mode := .carrier, frame := 0, bit := 0, cyc := 0, ph := false, cnt := 0,
        left := BitVec.ofNat 32 n.toNat } }
    (n = 0 → exec (.txcc n) s = .next s)
      ∧ (n ≠ 0 → exec (.txcc n) s = .next t ∧ statusWord t = statusWord s ||| 1
        ∧ txRest t.cfg t.tx = carrier t.cfg n.toNat))
  ∧ (∀ (c : Config) (n : BitVec 16), c.carrierCps * n.toNat < 2 ^ 24 →
    seq c (.txcc (BitVec.ofNat 24 (c.carrierCps * n.toNat))) = seq c (.txc n))
  ∧ carrier Config.default 3 = [64, 64, 192, 192, 64, 64, 192, 192, 64, 64, 192, 192]

/-- Rules R84 and R113: the reserved transmit words, and what one does: ERR_TXC is set, and nothing else changes. -/
def Obligations.ReservedTransmitWord : Prop :=
  (∀ w : TxcWord, decode (.txc w) = .illegalTxc w ↔
    w.extractLsb' 28 4 = 0#4 ∨ 4 ≤ (w.extractLsb' 28 4).toNat ∨ (w.extractLsb' 28 4 = 1#4 ∧ w.extractLsb' 8 20 ≠ 0#20)
      ∨ (w.extractLsb' 28 4 = 2#4 ∧ w.extractLsb' 16 12 ≠ 0#12) ∨ (w.extractLsb' 28 4 = 3#4 ∧ w.extractLsb' 24 4 ≠ 0#4))
  ∧ (∀ (w : TxcWord) (s : State), legal s.cfg = true → s.tx.busy = false →
    exec (.illegalTxc w) s = .next { s with errTxc := true })
  ∧ (∀ (c : Config) (w : TxcWord), seq c (.illegalTxc w) = [])
  ∧ decode (.txc 0x00000000) = .illegalTxc 0x00000000 ∧ decode (.txc 0x10000100) = .illegalTxc 0x10000100
  ∧ ∃ t, exec (decode (.txc 0x40000000)) State.reset = .next t ∧ statusWord t = 0x00000100

/-- Rules R62 and R107: a transmit word transfers only when tx_busy = 0; when it transfers, the step is the meaning of the
decoded word, consumed from the port; until then the word stays on offer and nothing happens. TX_BUSY is tx_busy. -/
def Obligations.TransmitWordTransfersWhenIdle : Prop :=
  ∀ (s : State) (w : TxcWord) (ws : List TxcWord) (us : List Turn),
    legal s.cfg = true → s.rst = false → s.turns = .txc :: us → s.txcIn = w :: ws →
    (s.tx.busy = false → step s = exec (decode (.txc w)) { s with turns := us, txcIn := ws })
    ∧ (s.tx.busy = true → step s = .next { s with turns := us })
    ∧ txcReady s = !s.tx.busy ∧ (statusWord s).getLsbD 0 = s.tx.busy

/-- A transaction offered to a port that is not ready waits with none of its effect: the state is what it was. The form is
the model's choice (log 6); the waits are those of 60_exceptions.md section 3. -/
def Obligations.WordsWaitAtAPortThatIsNotReady : Prop :=
  ∀ (s : State) (i : Instr), legal s.cfg = true →
    (i.port = .txc → s.tx.busy = true → exec i s = .next s) ∧ (i.port = .rxi → rxStall s = true → exec i s = .next s)

/-- Rule R115, with rule R63: the delivery step, case by case. `one` is the tone, `h` its half-length, `r` its repeat
count. With tx_busy = 0 no delivery step exists. -/
def Obligations.DeliveryStep : Prop :=
  ∀ (s : State) (us : List Turn), legal s.cfg = true → s.rst = false → s.turns = .txs :: us → TxInv s.cfg s.tx →
    let one := decide (s.tx.mode = .carrier) || s.tx.frame.getLsbD s.tx.bit.toNat
    let h := if one then halfOne s.cfg else halfZero s.cfg
    let r := if one then s.cfg.oneRepeat else s.cfg.zeroRepeat
    let goesTo := fun x : TxEngine => step s = .next { s with
      turns := us, tx := x, txsOut := s.txsOut ++ [if s.tx.ph = false then low s.cfg else high s.cfg] }
    (s.tx.busy = false → step s = .next { s with turns := us })
    ∧ (s.tx.busy = true → s.tx.cnt.toNat + 1 < h → goesTo { s.tx with cnt := s.tx.cnt + 1 })
    ∧ (s.tx.busy = true → h ≤ s.tx.cnt.toNat + 1 → s.tx.ph = false → goesTo { s.tx with cnt := 0, ph := true })
    ∧ (s.tx.busy = true → h ≤ s.tx.cnt.toNat + 1 → s.tx.ph = true → s.tx.mode = .carrier →
      (s.tx.left = 1 → goesTo TxEngine.reset)
      ∧ (s.tx.left ≠ 1 → goesTo { s.tx with cnt := 0, ph := false, left := s.tx.left - 1 }))
    ∧ (s.tx.busy = true → h ≤ s.tx.cnt.toNat + 1 → s.tx.ph = true → s.tx.mode = .frame →
      (s.tx.cyc.toNat + 1 < r → goesTo { s.tx with cnt := 0, ph := false, cyc := s.tx.cyc + 1 })
      ∧ (r ≤ s.tx.cyc.toNat + 1 → s.tx.bit = 11 → goesTo TxEngine.reset)
      ∧ (r ≤ s.tx.cyc.toNat + 1 → s.tx.bit ≠ 11 →
        goesTo { s.tx with cnt := 0, ph := false, cyc := 0, bit := s.tx.bit + 1 }))

/-- Rule R116: a command accepted by an idle engine delivers exactly its sequence, in order, and tx_busy returns to 0 in the
step that delivers the last sample; an empty sequence never makes it busy. Whatever else happens before the next word is
accepted, without a transmit reset, the samples delivered are a first part of the sequence, all of it once tx_busy is 0. -/
def Obligations.DeliveriesAreTheCommandsSequence : Prop :=
  ∀ (i : Instr) (s t : State), i.port = .txc → legal s.cfg = true → TxInv s.cfg s.tx → s.tx.busy = false →
    exec i s = .next t →
    (seq s.cfg i = [] → t.tx = s.tx)
    ∧ (∀ (n : Nat) (u : State), NoTxReset t → Host.Core.run Sys2Proof.core n t = .next u → u.txcIn = t.txcIn →
      ∃ k ≤ (seq s.cfg i).length, u.txsOut = s.txsOut ++ (seq s.cfg i).take k
        ∧ (u.tx.busy = true ↔ k < (seq s.cfg i).length))
    ∧ (∀ k ≤ (seq s.cfg i).length,
      (deliverN k t).txsOut = s.txsOut ++ (seq s.cfg i).take k
        ∧ ((deliverN k t).tx.busy = true ↔ k < (seq s.cfg i).length))
    ∧ (deliverN (seq s.cfg i).length t).tx = TxEngine.reset

/-- Rule R106 with rule R73: over a whole run, whatever the interleaving, what txs has delivered and what the engine still
has to deliver is the concatenation, in acceptance order, of the sequences of the accepted words: no sample is inserted
or dropped. Only a transmit reset cuts a command short, and this host makes none. -/
def Obligations.TransmitStreamIsTheConcatenation : Prop :=
  (∀ (c : Config) (b : Byte) (n : BitVec 16) (k : BitVec 24) (w : TxcWord), seq c (.txb b) = frameSamples c b
    ∧ seq c (.txc n) = carrier c (c.carrierCps * n.toNat) ∧ seq c (.txcc k) = carrier c k.toNat
    ∧ seq c (.illegalTxc w) = [])
  ∧ ∀ (n : Nat) (s t : State), legal s.cfg = true → TxInv s.cfg s.tx → NoTxReset s →
    Host.Core.run Sys2Proof.core n s = .next t →
    ∃ ws, s.txcIn = ws ++ t.txcIn
      ∧ t.txsOut ++ txRest t.cfg t.tx
        = s.txsOut ++ txRest s.cfg s.tx ++ ws.flatMap fun w => seq s.cfg (decode (.txc w))

/-- Rule R117: the host sequence txc L; txb b1; ...; txb bn; txc T delivers the leader's carrier, the frames and the
trailer's carrier, and leaves the block as it was; an empty byte stream gives the leader and the trailer only. -/
def Obligations.EncodeDeliversTheWaveform : Prop :=
  (∀ (c : Config) (m n : Nat), encodeSamples c m [] n = carrier c (c.carrierCps * m) ++ carrier c (c.carrierCps * n))
  ∧ ∀ (s : State) (leader trailer : BitVec 16) (bytes : List Byte) (rest : List TxcWord) (us : List Turn),
    legal s.cfg = true → TxInv s.cfg s.tx → s.tx.busy = false → s.rst = false →
    s.txcIn = (0x2000#16 ++ leader) :: (bytes.map fun b => 0x100000#24 ++ b) ++ (0x2000#16 ++ trailer) :: rest →
    ∃ vs : List Turn, Host.Core.run Sys2Proof.core vs.length { s with turns := vs ++ us }
      = .next { s with
        turns := us, txcIn := rest
        txsOut := s.txsOut ++ encodeSamples s.cfg leader.toNat bytes trailer.toNat }

/-- Rule R119: the samples of a command depend only on the command and the parameters, not on what the rest of the block
holds. -/
def Obligations.CommandsArePure : Prop :=
  ∀ (i : Instr) (s s' t t' : State), i.port = .txc → legal s.cfg = true → s'.cfg = s.cfg →
    TxInv s.cfg s.tx → TxInv s'.cfg s'.tx → s.tx.busy = false → s'.tx.busy = false →
    exec i s = .next t → exec i s' = .next t' →
    t.tx = t'.tx ∧ ∀ n, ∃ l, (deliverN n t).txsOut = s.txsOut ++ l ∧ (deliverN n t').txsOut = s'.txsOut ++ l

/-- Rule R25: the transmit engine's invariants are kept by every step, from every state that meets them. -/
def Obligations.StepKeepsTransmitInvariants : Prop :=
  ∀ s t : State, legal s.cfg = true → TxInv s.cfg s.tx → step s = .next t → legal t.cfg = true ∧ TxInv t.cfg t.tx

/-- Rule R24: only TXB, TXC, TXCC and the delivery step write the transmit fields, and the hardware reset and CTRL.TX_RST
reset them; TX_BUSY mirrors tx_busy; and nothing outside the engine reads any other transmit field. -/
def Obligations.TransmitFieldsHaveFewWriters : Prop :=
  ∀ (s t : State) (u : Turn) (us : List Turn), s.turns = u :: us → step s = .next t →
    (t.tx ≠ s.tx →
      (u = .txc ∧ ∃ i, accepted .txc s = some i
        ∧ ((∃ b, i = .txb b) ∨ (∃ n, i = .txc n) ∨ (∃ n, i = .txcc n)))
      ∨ (u = .txs ∧ s.rst = false)
      ∨ (u = .resetRelease ∧ s.rst = true ∧ t.tx = TxEngine.reset)
      ∨ (u = .csr ∧ t.tx = TxEngine.reset ∧ ∃ i, accepted .csr s = some i ∧ isTxRst i = true))
    ∧ (statusWord t).getLsbD 0 = t.tx.busy
    ∧ (u ≠ .txc → u ≠ .txs → ∀ x : TxEngine, x.busy = s.tx.busy →
      ∃ y, step { s with tx := x } = .next { t with tx := y })

/-! ## The receive engine (41_rx_decode.md) -/

/-- Rules R64 and R140: a receive word transfers unless the engine stands at the last bit of a byte with rx_out full; while
it does, every receive word waits on the port; taking a byte from rxo lifts the stall; and where it does not stall, a byte
that is due finds room. -/
def Obligations.ReceiveWordTransfersUnlessStalled : Prop :=
  ∀ (s : State) (w : RxiWord) (ws : List RxiWord) (us : List Turn),
    legal s.cfg = true → s.rst = false → s.turns = .rxi :: us → s.rxiIn = w :: ws →
    let stall := s.rx.state = .sample ∧ s.rx.bitn = 7 ∧ s.rx.cnt.toNat = s.cfg.framesPerBit - 1
      ∧ s.rxOut.length = s.cfg.outDepth
    (¬ stall → rxiReady s = true ∧ step s = exec (decode (.rxi w)) { s with turns := us, rxiIn := ws })
    ∧ (¬ stall → RxInv s.cfg s.rx s.rxOut → s.rx.state = .sample → s.rx.bitn = 7 →
      s.rx.cnt.toNat = s.cfg.framesPerBit - 1 → s.rxOut.length < s.cfg.outDepth)
    ∧ (stall → rxiReady s = false ∧ step s = .next { s with turns := us } ∧ rxiReady (rxoDeliver s) = true)

/-- Rules R141 and R143: RXS in FILL. The sign-change bit goes into the window, no threshold is tested, and the window is
full, with the write index back at 0, exactly when N bits have been taken (every other field unchanged). -/
def Obligations.SampleInFill : Prop :=
  ∀ (v : Byte) (s : State), legal s.cfg = true → RxInv s.cfg s.rx s.rxOut → s.rx.state = .fill →
    let e := v.getLsbD 7 ^^ s.rx.prev
    ∃ r : RxEngine, exec (.rxs v) s = .next { s with rx := r }
      ∧ r = { s.rx with
        prev := v.getLsbD 7, state := r.state, win := s.rx.win.set s.rx.fill.toNat e
        wptr := r.wptr, fill := r.fill, sum := r.sum }
      ∧ r.wptr.toNat = (s.rx.wptr.toNat + 1) % s.cfg.framesPerBit ∧ r.fill.toNat = s.rx.fill.toNat + 1
      ∧ r.sum.toNat = s.rx.sum.toNat + e.toNat
      ∧ (s.rx.fill.toNat + 1 = s.cfg.framesPerBit → r.state = .seek ∧ r.wptr = 0)
      ∧ (s.rx.fill.toNat + 1 ≠ s.cfg.framesPerBit → r.state = .fill)

/-- Rules R141 and R144: RXS in SEEK. The window slides by one bit, the sum loses the evicted bit and gains the new one,
and a sum of at most TS starts SAMPLE with the sampler at 0 (every other field unchanged). -/
def Obligations.SampleInSeek : Prop :=
  ∀ (v : Byte) (s : State), legal s.cfg = true → RxInv s.cfg s.rx s.rxOut → s.rx.state = .seek →
    let e := v.getLsbD 7 ^^ s.rx.prev
    let old := s.rx.win.getD s.rx.wptr.toNat false
    let total := s.rx.sum.toNat - old.toNat + e.toNat
    old.toNat ≤ s.rx.sum.toNat
    ∧ ∃ r : RxEngine, exec (.rxs v) s = .next { s with rx := r }
      ∧ r = { s.rx with
        prev := v.getLsbD 7, state := r.state, win := s.rx.win.set s.rx.wptr.toNat e
        wptr := r.wptr, sum := r.sum, acc := 0, cnt := 0, bitn := 0, byte := 0 }
      ∧ r.wptr.toNat = (s.rx.wptr.toNat + 1) % s.cfg.framesPerBit ∧ r.sum.toNat = total
      ∧ (total ≤ s.cfg.startThreshold → r.state = .sample)
      ∧ (s.cfg.startThreshold < total → r.state = .seek)

/-- Rules R141, R145 and R147: RXS in SAMPLE. N bits are summed for each data bit; a sum of at least T1 sets it; the eighth
completes the byte, which joins the end of rx_out, where there is room for it, and SKIP begins (every other field
unchanged). -/
def Obligations.SampleInSample : Prop :=
  ∀ (v : Byte) (s : State), legal s.cfg = true → RxInv s.cfg s.rx s.rxOut → s.rx.state = .sample → rxStall s = false →
    let e := v.getLsbD 7 ^^ s.rx.prev
    let acc := s.rx.acc.toNat + e.toNat
    let byte := if s.cfg.oneThreshold ≤ acc then s.rx.byte ||| BitVec.ofNat 8 (2 ^ s.rx.bitn.toNat) else s.rx.byte
    (s.rx.cnt.toNat + 1 < s.cfg.framesPerBit → ∃ r : RxEngine, exec (.rxs v) s = .next { s with rx := r }
      ∧ r = { s.rx with prev := v.getLsbD 7, acc := r.acc, cnt := r.cnt }
      ∧ r.acc.toNat = acc ∧ r.cnt.toNat = s.rx.cnt.toNat + 1)
    ∧ (s.cfg.framesPerBit ≤ s.rx.cnt.toNat + 1 → s.rx.bitn.toNat < 7 → ∃ r : RxEngine,
      exec (.rxs v) s = .next { s with rx := r }
      ∧ r = { s.rx with prev := v.getLsbD 7, acc := 0, cnt := 0, byte := byte, bitn := r.bitn }
      ∧ r.bitn.toNat = s.rx.bitn.toNat + 1)
    ∧ (s.cfg.framesPerBit ≤ s.rx.cnt.toNat + 1 → 7 ≤ s.rx.bitn.toNat → ∃ r : RxEngine,
      exec (.rxs v) s = .next { s with rx := r, rxOut := s.rxOut ++ [byte] }
      ∧ r = { s.rx with prev := v.getLsbD 7, acc := 0, cnt := 0, byte := 0, bitn := 0, state := .skip, skip := r.skip }
      ∧ r.skip.toNat = s.cfg.framesPerBit + (2 * s.cfg.framesPerBit - 1) ∧ s.rxOut.length < s.cfg.outDepth)

/-- Rules R141 and R146: RXS in SKIP. The bit is discarded; the last one of SKIP_LEN enters FILL with a cleared window
(every other field unchanged). -/
def Obligations.SampleInSkip : Prop :=
  ∀ (v : Byte) (s : State), legal s.cfg = true → RxInv s.cfg s.rx s.rxOut → s.rx.state = .skip →
    (1 < s.rx.skip.toNat → ∃ r : RxEngine, exec (.rxs v) s = .next { s with rx := r }
      ∧ r = { s.rx with prev := v.getLsbD 7, skip := r.skip } ∧ r.skip.toNat = s.rx.skip.toNat - 1)
    ∧ (s.rx.skip.toNat ≤ 1 → exec (.rxs v) s = .next { s with rx :=
      { s.rx with
        prev := v.getLsbD 7, state := .fill, win := List.replicate s.cfg.framesPerBit false
        wptr := 0, fill := 0, sum := 0, skip := 0 } })

/-- Rules R86, R141, R142 and R150, beside the four states above: the words of RXS; the edge detector runs in every state
and hands its bit to the state's rule; RXS completes in every state that is not stalled and writes nothing but the
receive fields; only bit 7 of SAMPLE matters; a constant input makes the first SEEK step detect a start; N = 1; the
rule's example. -/
def Obligations.OnlyBit7OfASampleMatters : Prop :=
  (∀ w : RxiWord, w.extractLsb' 8 8 = 0#8 ↔ w &&& 0xFF00#16 = 0x0000#16)
  ∧ (∀ w : RxiWord, w &&& 0xFF00#16 = 0x0000#16 → decode (.rxi w) = .rxs (w.extractLsb' 0 8))
  ∧ (∀ (v : Byte) (s : State), legal s.cfg = true → rxStall s = false →
    ∃ r o, exec (.rxs v) s = .next { s with rx := r, rxOut := s.rxOut ++ o } ∧ r.prev = v.getLsbD 7 ∧ o.length ≤ 1)
  ∧ (∀ (c : Config) (v : Byte) (r : RxEngine),
    let e := v.getLsbD 7 ^^ r.prev
    let r' := { r with prev := v.getLsbD 7 }
    (r.state = .fill → rxTake c v r = (rxFillStep c e r', none)) ∧ (r.state = .seek → rxTake c v r = (rxSeekStep c e r', none))
      ∧ (r.state = .sample → rxTake c v r = rxSampleStep c e r') ∧ (r.state = .skip → rxTake c v r = (rxSkipStep c r', none)))
  ∧ (∀ (v v' : Byte) (s : State), v.getLsbD 7 = v'.getLsbD 7 → exec (.rxs v) s = exec (.rxs v') s)
  ∧ (∀ (c : Config) (v : Byte), legal c = true →
    (takeAll c (RxEngine.reset c.framesPerBit) (List.replicate c.framesPerBit v)).state = .seek
      ∧ (takeAll c (RxEngine.reset c.framesPerBit) (List.replicate (c.framesPerBit + 1) v)).state = .sample)
  ∧ (∀ (c : Config) (v : Byte), legal c = true → c.framesPerBit = 1 →
    (takeAll c (RxEngine.reset 1) [v]).state = .seek ∧ skipLen c = 2)
  ∧ ∃ t, exec (.rxs 0xC0) State.reset = .next t ∧ t.rx.prev = true ∧ t.rx.win.getD 0 false = true ∧ t.rx.wptr = 1
    ∧ t.rx.fill = 1 ∧ t.rx.sum = 1 ∧ t.rx.state = .fill

/-- Rules R87 and R151: RXE is the one word 0x0100; it resets the receive engine, keeps rx_out and emits nothing (every
other field unchanged); at reset it changes nothing. -/
def Obligations.EndOfStream : Prop :=
  (∀ w : RxiWord, decode (.rxi w) = .rxe ↔ w = 0x0100#16)
  ∧ (∀ s : State, legal s.cfg = true → rxStall s = false →
    let t := { s with rx := RxEngine.reset s.cfg.framesPerBit }
    exec .rxe s = .next t
      ∧ ∀ k, (statusWord t).getLsbD k = if k = 2 ∨ k = 3 then false else (statusWord s).getLsbD k)
  ∧ (∀ c : Config, legal c = true → exec .rxe (State.resetWith c) = .next (State.resetWith c))

/-- Rules R88 and R152: the reserved receive words, and what one does: ERR_RXI is set, nothing else changes, and the word is
no sample. -/
def Obligations.ReservedReceiveWord : Prop :=
  (∀ w : RxiWord, decode (.rxi w) = .illegalRxi w ↔
    (w.extractLsb' 8 8 = 1#8 ∧ w.extractLsb' 0 8 ≠ 0#8) ∨ 2 ≤ (w.extractLsb' 8 8).toNat)
  ∧ (∀ (w : RxiWord) (s : State), legal s.cfg = true → rxStall s = false →
    exec (.illegalRxi w) s = .next { s with errRxi := true })
  ∧ decode (.rxi 0x0101) = .illegalRxi 0x0101 ∧ decode (.rxi 0x0200) = .illegalRxi 0x0200
  ∧ decode (.rxi 0x0100) = .rxe ∧ decode (.rxi 0xFF00) = .illegalRxi 0xFF00

/-- Rules R65 and R153: the delivery step on rxo takes the oldest byte of rx_out; with rx_out empty nothing transfers. -/
def Obligations.ByteDelivery : Prop :=
  ∀ (s : State) (us : List Turn), legal s.cfg = true → s.rst = false → s.turns = .rxo :: us →
    (∀ b bs, s.rxOut = b :: bs → rxoValid s = true
      ∧ step s = .next { s with turns := us, rxOut := bs, rxoOut := s.rxoOut ++ [b] })
    ∧ (s.rxOut = [] → rxoValid s = false ∧ step s = .next { s with turns := us })

/-- Rules R33, and the ranges of R32, R34, R35 and R36: the receive engine's invariants are kept by every step. -/
def Obligations.StepKeepsReceiveInvariants : Prop :=
  ∀ s t : State, legal s.cfg = true → RxInv s.cfg s.rx s.rxOut → step s = .next t → RxInv t.cfg t.rx t.rxOut

/-- Rule R37: only RXS writes the receive fields, and RXE, CTRL.RX_RST and the hardware reset reset them; STATUS mirrors
rx_state and rx_out; the transmit engine neither reads nor writes a receive field. -/
def Obligations.ReceiveFieldsHaveFewWriters : Prop :=
  ∀ (s t : State) (u : Turn) (us : List Turn), s.turns = u :: us → step s = .next t →
    (t.rx ≠ s.rx →
      (u = .rxi ∧ ∃ i, accepted .rxi s = some i
        ∧ ((∃ v, i = .rxs v) ∨ (i = .rxe ∧ t.rx = RxEngine.reset s.cfg.framesPerBit)))
      ∨ (u = .resetRelease ∧ s.rst = true ∧ t.rx = RxEngine.reset s.cfg.framesPerBit)
      ∨ (u = .csr ∧ t.rx = RxEngine.reset s.cfg.framesPerBit ∧ ∃ i, accepted .csr s = some i ∧ isRxRst i = true))
    ∧ ((statusWord t).extractLsb' 2 2 = rxStateCode t.rx.state ∧ (statusWord t).getLsbD 1 = !t.rxOut.isEmpty)
    ∧ (u = .txc ∨ u = .txs → ∀ (r : RxEngine) (o : List Byte),
      step { s with rx := r, rxOut := o } = .next { t with rx := r, rxOut := o })

/-- Rule R154: the samples of the parity and stop bits are never examined: in SKIP no byte comes out and no status bit
changes, whatever the sample. Two streams that differ only in the samples SKIP
discards leave the engine in the same state, but for the polarity of the last sample, and emit nothing. -/
def Obligations.ParityAndStopBitsAreNotExamined : Prop :=
  (∀ (v : Byte) (s : State), legal s.cfg = true → s.rx.state = .skip → ∃ r, exec (.rxs v) s = .next { s with rx := r })
  ∧ ∀ (c : Config) (r : RxEngine) (vs vs' : List Byte) (z : Byte), legal c = true → WindowInv c r → SamplerInv c r →
    r.state = .skip → vs.length = vs'.length → vs.length < r.skip.toNat →
    takeAll c r (vs ++ [z]) = takeAll c r (vs' ++ [z])
      ∧ (rxTake c z (takeAll c r vs)).2 = none ∧ (takeAll c r vs).byte = 0
      ∧ ((takeAll c r (vs ++ [z])).state = .fill ↔ vs.length + 1 = r.skip.toNat)

/-- Rule R155: whatever the interleaving and however often the receiver stalls, the bytes that come out of a stream of
samples ended by RXE are `dec` of the sign-change bits of the samples taken so far; and `dec` is the rule's own recursion. -/
def Obligations.ReceivedBytesAreDec : Prop :=
  (∀ (c : Config) (es : List Bool), legal c = true → dec c es =
    if es.length < c.framesPerBit then []
    else
      match seekStart c (es.take c.framesPerBit) (es.drop c.framesPerBit) with
      | none => []
      | some r =>
        if r.length < 8 * c.framesPerBit then []
        else dataByte c r :: dec c (r.drop (8 * c.framesPerBit + skipLen c)))
  ∧ ∀ (n : Nat) (s t : State) (vs : List Byte), legal s.cfg = true →
    s.rx = RxEngine.reset s.cfg.framesPerBit → s.rxOut.length ≤ s.cfg.outDepth → NoRxReset s →
    s.rxiIn = vs.map rxsWord ++ [0x0100#16] → Host.Core.run Sys2Proof.core n s = .next t →
    ∃ k ≤ vs.length + 1, t.rxiIn = s.rxiIn.drop k
      ∧ t.rxoOut ++ t.rxOut = s.rxoOut ++ s.rxOut ++ dec s.cfg (edges false (vs.take k))
      ∧ (k = vs.length + 1 → t.rx = RxEngine.reset s.cfg.framesPerBit)

/-- Rule R156: a stream of fewer than 9N + 1 samples decodes to no byte, in `dec` and on the machine. -/
def Obligations.ShortWaveformsDecodeToNothing : Prop :=
  (∀ (c : Config) (es : List Bool), legal c = true → es.length < 9 * c.framesPerBit + 1 → dec c es = [])
  ∧ ∀ (n : Nat) (s t : State) (vs : List Byte), legal s.cfg = true →
    s.rx = RxEngine.reset s.cfg.framesPerBit → s.rxOut.length ≤ s.cfg.outDepth → NoRxReset s →
    s.rxiIn = vs.map rxsWord ++ [0x0100#16] → vs.length < 9 * s.cfg.framesPerBit + 1 →
    Host.Core.run Sys2Proof.core n s = .next t → t.rxoOut ++ t.rxOut = s.rxoOut ++ s.rxOut

/-- Rule R157: at the defaults no window inside a carrier has few sign changes: 16 in every window of 32, but 15 in the
very first of a stream that starts with the carrier; so SEEK detects no start bit in it. -/
def Obligations.NoFalseStartInACarrier : Prop :=
  (∀ (k i : Nat) (prev : Bool), i + 32 ≤ 4 * k →
    ones (((edges prev (carrier Config.default k)).drop i).take 32) = if i = 0 ∧ prev = false then 15 else 16)
  ∧ ∀ k m : Nat, m ≤ 4 * k →
    let r := takeAll Config.default (RxEngine.reset 32) ((carrier Config.default k).take m)
    r.state = (if m < 32 then .fill else .seek) ∧ (m = 32 → r.sum = 15) ∧ (32 < m → r.sum = 16)

/-- Rule R158's claim, at the defaults: whatever the leader and the trailer, of any number of cycles, and whatever the bytes, a
receiver that takes the leader's carrier, the frames, the trailer's carrier and RXE has, once it has taken all of it, put out
exactly the bytes. A leader and a trailer in seconds (rule R117) are those of CPS times as many cycles. -/
def Obligations.RoundTripAtTheDefaults : Prop :=
  (∀ (leader trailer : Nat) (bytes : List Byte), encodeSamples Config.default leader bytes trailer
    = carrier Config.default (2400 * leader) ++ bytes.flatMap (frameSamples Config.default)
      ++ carrier Config.default (2400 * trailer))
  ∧ ∀ (n : Nat) (s t : State) (j k : Nat) (bytes : List Byte), s.cfg = Config.default →
    s.rx = RxEngine.reset 32 → s.rxOut = [] → NoRxReset s →
    s.rxiIn = (carrier Config.default j ++ bytes.flatMap (frameSamples Config.default)
      ++ carrier Config.default k).map rxsWord ++ [0x0100#16] →
    Host.Core.run Sys2Proof.core n s = .next t → t.rxiIn = [] →
    t.rxoOut ++ t.rxOut = s.rxoOut ++ bytes

/-! ## Control and status registers (42_csr.md) -/

/-- Rules R180 and R41: CSRR returns CTRL as 0, STATUS bit by bit, and 0 for a reserved index, whatever WDATA holds, and
changes nothing; two reads in a row return the same word; of STATUS a write clears the error bits its 1s stand at, and
every other bit reads as before. -/
def Obligations.ControlRegisterRead : Prop :=
  (∀ q : CsrReq, q.getLsbD 35 = false → decode (.csr q) = .csrr (q.extractLsb' 32 3) (q.extractLsb' 0 32))
  ∧ (∀ (x : BitVec 3) (d : CsrWord) (s : State), legal s.cfg = true → ∃ w : CsrWord,
    exec (.csrr x d) s = .next { s with csrOut := s.csrOut ++ [w] }
      ∧ exec (.csrr x d) { s with csrOut := s.csrOut ++ [w] } = .next { s with csrOut := s.csrOut ++ [w, w] }
      ∧ (x ≠ 1 → w = 0x00000000#32)
      ∧ (x = 1 → w.getLsbD 0 = s.tx.busy ∧ (w.getLsbD 1 = true ↔ s.rxOut ≠ []) ∧ w.extractLsb' 2 2 = rxStateCode s.rx.state
        ∧ w.extractLsb' 4 4 = 0#4 ∧ w.getLsbD 8 = s.errTxc ∧ w.getLsbD 9 = s.errRxi ∧ w.extractLsb' 10 22 = 0#22))
  ∧ (∃ t, exec (.csrr 1 0) State.reset = .next t ∧ t.csrOut = [0x00000000#32])
  ∧ (∀ (d : CsrWord) (s : State), legal s.cfg = true → ∃ t, exec (.csrw 1 d) s = .next t
    ∧ csrRead 1 t = csrRead 1 s &&& ~~~(d &&& 0x300#32))
  ∧ ∀ s : State, s.tx.busy = true → s.rx.state = .seek → s.rxOut = [] → s.errTxc = false → s.errRxi = false →
    csrRead 1 s = 0x00000005#32

/-- Rules R181, R40 and R42: what a write to each index does, with every other field unchanged; CTRL and the reserved
indices read 0 in every state. -/
def Obligations.ControlRegisterWrite : Prop :=
  (∀ q : CsrReq, q.getLsbD 35 = true → decode (.csr q) = .csrw (q.extractLsb' 32 3) (q.extractLsb' 0 32))
  ∧ (∀ (d : CsrWord) (s : State), legal s.cfg = true →
    exec (.csrw 0 d) s = .next { s with
      tx := if d.getLsbD 0 then TxEngine.reset else s.tx
      rx := if d.getLsbD 1 then RxEngine.reset s.cfg.framesPerBit else s.rx
      rxOut := if d.getLsbD 1 then [] else s.rxOut })
  ∧ (∀ (d : CsrWord) (s : State), legal s.cfg = true →
    exec (.csrw 1 d) s = .next { s with
      errTxc := s.errTxc && !d.getLsbD 8
      errRxi := s.errRxi && !d.getLsbD 9 })
  ∧ (∀ (x : BitVec 3) (d : CsrWord) (s : State), legal s.cfg = true → 2 ≤ x.toNat → exec (.csrw x d) s = .next s)
  ∧ (∀ (x : BitVec 3) (s : State), x ≠ 1 → csrRead x s = 0x00000000#32)

/-- A control-register access on the machine: in every state, busy or stalled, the step is the meaning of the decoded
request, consumed from the port, and takes full effect in that step (rule R182). -/
def Obligations.ControlAccessAlwaysRuns : Prop :=
  ∀ (s : State) (q : CsrReq) (qs : List CsrReq) (us : List Turn),
    legal s.cfg = true → s.rst = false → s.turns = .csr :: us → s.csrIn = q :: qs →
    step s = exec (decode (.csr q)) { s with turns := us, csrIn := qs }
      ∧ ∃ t, step s = .next t ∧ t.csrIn = qs ∧ t.turns = us

/-- Rule R221: a transmit reset leaves every transmit field at its reset value and no sample to deliver, keeps what was
delivered and ERR_TXC, and changes nothing in an idle engine. -/
def Obligations.TransmitReset : Prop :=
  ∀ s : State, legal s.cfg = true →
    (∃ t, exec (.csrw 0 1) s = .next t ∧ t = { s with tx := TxEngine.reset } ∧ t.tx.busy = false
      ∧ txRest t.cfg t.tx = [] ∧ ∀ n, (deliverN n t).txsOut = s.txsOut)
    ∧ (TxInv s.cfg s.tx → s.tx.busy = false → exec (.csrw 0 1) s = .next s)

/-- Rule R222: the receive reset, with rx_out kept (RXE) or emptied (CTRL.RX_RST), and ERR_RXI as it was. -/
def Obligations.ReceiveReset : Prop :=
  ∀ s : State, legal s.cfg = true →
    let r : RxEngine := {
      prev := false, state := .fill, win := List.replicate s.cfg.framesPerBit false, wptr := 0
      fill := 0, sum := 0, acc := 0, cnt := 0, bitn := 0, byte := 0, skip := 0 }
    exec (.csrw 0 2) s = .next { s with rx := r, rxOut := [] }
      ∧ (rxStall s = false → exec .rxe s = .next { s with rx := r })

/-! ## Whole-machine rules (20_memory.md, 60_exceptions.md) -/

/-- Rule R183: the error bits change only in three ways, and no step both sets one and clears one. -/
def Obligations.ErrorBitsChangeInThreeWays : Prop :=
  ∀ (s t : State) (u : Turn) (us : List Turn), s.turns = u :: us → step s = .next t →
    (t.errTxc ≠ s.errTxc →
      (t.errTxc = true ∧ u = .txc ∧ ∃ w, accepted .txc s = some (.illegalTxc w))
      ∨ (t.errTxc = false ∧ u = .csr ∧ ∃ d, accepted .csr s = some (.csrw 1 d) ∧ d.getLsbD 8 = true)
      ∨ (t.errTxc = false ∧ u = .resetRelease ∧ s.rst = true))
    ∧ (t.errRxi ≠ s.errRxi →
      (t.errRxi = true ∧ u = .rxi ∧ ∃ w, accepted .rxi s = some (.illegalRxi w))
      ∨ (t.errRxi = false ∧ u = .csr ∧ ∃ d, accepted .csr s = some (.csrw 1 d) ∧ d.getLsbD 9 = true)
      ∨ (t.errRxi = false ∧ u = .resetRelease ∧ s.rst = true))
    ∧ ¬ (s.errTxc = false ∧ t.errTxc = true ∧ s.errRxi = true ∧ t.errRxi = false)
    ∧ ¬ (s.errRxi = false ∧ t.errRxi = true ∧ s.errTxc = true ∧ t.errTxc = false)

/-- Rules R200, R201, R202 and R205: a reserved word that transfers is consumed and sets its one sticky bit, which stays
set if it was; the state is otherwise exactly what it was, and the engine goes on. -/
def Obligations.ErrorsArePrecise : Prop :=
  ∀ (s : State) (us : List Turn), legal s.cfg = true → s.rst = false →
    (∀ w ws, s.turns = .txc :: us → s.txcIn = w :: ws → s.tx.busy = false → txcReserved w = true →
      step s = .next { s with turns := us, txcIn := ws, errTxc := true })
    ∧ (∀ w ws, s.turns = .rxi :: us → s.rxiIn = w :: ws → rxStall s = false → rxiReserved w = true →
      step s = .next { s with turns := us, rxiIn := ws, errRxi := true })

/-- Rule R74: the engines share no state, so a transmit turn and a receive turn in either order give the same state, and so
the same sequence on every port. -/
def Obligations.EnginesCommute : Prop :=
  ∀ (s : State) (u v : Turn) (us : List Turn), (u = .txc ∨ u = .txs) → (v = .rxi ∨ v = .rxo) →
    Host.Core.run Sys2Proof.core 2 { s with turns := u :: v :: us }
      = Host.Core.run Sys2Proof.core 2 { s with turns := v :: u :: us }

/-- Rule R213: when the turn's transfer is not enabled, or no turn is left, the block holds its state. -/
def Obligations.IdleTurnsHoldTheState : Prop :=
  ∀ s : State, legal s.cfg = true →
    (s.turns = [] → step s = .next s)
    ∧ ∀ u us, s.turns = u :: us →
      ((u = .txc ∧ (s.txcIn = [] ∨ s.tx.busy = true)) ∨ (u = .txs ∧ s.tx.busy = false)
        ∨ (u = .rxi ∧ (s.rxiIn = [] ∨ rxStall s = true)) ∨ (u = .rxo ∧ s.rxOut = []) ∨ (u = .csr ∧ s.csrIn = [])) →
      step s = .next { s with turns := us }

/-- Rule R214: each wait is lifted by the host. A busy engine becomes idle, and takes a word again, once the host has taken
as many samples as are left; a stalled receiver is ready once the host takes a byte; an idle engine runs a word as soon as
one is offered; and neither readiness depends on the other engine. -/
def Obligations.EveryWaitIsLifted : Prop :=
  (∀ s : State, legal s.cfg = true → TxInv s.cfg s.tx →
    txcReady (deliverN (txRest s.cfg s.tx).length s) = true
      ∧ ∀ k < (txRest s.cfg s.tx).length, txcReady (deliverN k s) = false)
  ∧ (∀ s : State, legal s.cfg = true → rxStall s = true → rxiReady (rxoDeliver s) = true)
  ∧ (∀ (s : State) (w : TxcWord) (v : RxiWord), legal s.cfg = true → s.rst = false →
    (s.tx.busy = false → step (placeWord (.txc w) s) = exec (decode (.txc w)) s)
      ∧ (rxStall s = false → step (placeWord (.rxi v) s) = exec (decode (.rxi v)) s))
  ∧ (∀ (s : State) (x : TxEngine) (r : RxEngine) (o : List Byte), rxiReady { s with tx := x } = rxiReady s
    ∧ txcReady { s with rx := r, rxOut := o } = txcReady s)
end

