-- ==== Sys2Proof/Laws/State.lean ====
section
/-!
SUPPORT. What each write of a field does to each field: one lemma per field per write, and a write of a field's own value.
-/

namespace Sys2Proof.Machine

variable (s : State)


/-! ## tx -/

@[simp] theorem setTx_cfg (x : TxEngine) : (s.setTx x).cfg = s.cfg := rfl
@[simp] theorem setTx_tx (x : TxEngine) : (s.setTx x).tx = x := rfl
@[simp] theorem setTx_rx (x : TxEngine) : (s.setTx x).rx = s.rx := rfl
@[simp] theorem setTx_rxOut (x : TxEngine) : (s.setTx x).rxOut = s.rxOut := rfl
@[simp] theorem setTx_errTxc (x : TxEngine) : (s.setTx x).errTxc = s.errTxc := rfl
@[simp] theorem setTx_errRxi (x : TxEngine) : (s.setTx x).errRxi = s.errRxi := rfl
@[simp] theorem setTx_rst (x : TxEngine) : (s.setTx x).rst = s.rst := rfl
@[simp] theorem setTx_txcIn (x : TxEngine) : (s.setTx x).txcIn = s.txcIn := rfl
@[simp] theorem setTx_rxiIn (x : TxEngine) : (s.setTx x).rxiIn = s.rxiIn := rfl
@[simp] theorem setTx_csrIn (x : TxEngine) : (s.setTx x).csrIn = s.csrIn := rfl
@[simp] theorem setTx_txsOut (x : TxEngine) : (s.setTx x).txsOut = s.txsOut := rfl
@[simp] theorem setTx_rxoOut (x : TxEngine) : (s.setTx x).rxoOut = s.rxoOut := rfl
@[simp] theorem setTx_csrOut (x : TxEngine) : (s.setTx x).csrOut = s.csrOut := rfl
@[simp] theorem setTx_turns (x : TxEngine) : (s.setTx x).turns = s.turns := rfl
@[simp] theorem setTx_self : s.setTx s.tx = s := rfl
@[simp] theorem setTx_setTx (x y : TxEngine) : (s.setTx x).setTx y = s.setTx y := rfl

/-! ## rx -/

@[simp] theorem setRx_cfg (x : RxEngine) : (s.setRx x).cfg = s.cfg := rfl
@[simp] theorem setRx_tx (x : RxEngine) : (s.setRx x).tx = s.tx := rfl
@[simp] theorem setRx_rx (x : RxEngine) : (s.setRx x).rx = x := rfl
@[simp] theorem setRx_rxOut (x : RxEngine) : (s.setRx x).rxOut = s.rxOut := rfl
@[simp] theorem setRx_errTxc (x : RxEngine) : (s.setRx x).errTxc = s.errTxc := rfl
@[simp] theorem setRx_errRxi (x : RxEngine) : (s.setRx x).errRxi = s.errRxi := rfl
@[simp] theorem setRx_rst (x : RxEngine) : (s.setRx x).rst = s.rst := rfl
@[simp] theorem setRx_txcIn (x : RxEngine) : (s.setRx x).txcIn = s.txcIn := rfl
@[simp] theorem setRx_rxiIn (x : RxEngine) : (s.setRx x).rxiIn = s.rxiIn := rfl
@[simp] theorem setRx_csrIn (x : RxEngine) : (s.setRx x).csrIn = s.csrIn := rfl
@[simp] theorem setRx_txsOut (x : RxEngine) : (s.setRx x).txsOut = s.txsOut := rfl
@[simp] theorem setRx_rxoOut (x : RxEngine) : (s.setRx x).rxoOut = s.rxoOut := rfl
@[simp] theorem setRx_csrOut (x : RxEngine) : (s.setRx x).csrOut = s.csrOut := rfl
@[simp] theorem setRx_turns (x : RxEngine) : (s.setRx x).turns = s.turns := rfl
@[simp] theorem setRx_self : s.setRx s.rx = s := rfl
@[simp] theorem setRx_setRx (x y : RxEngine) : (s.setRx x).setRx y = s.setRx y := rfl

/-! ## rxOut -/

@[simp] theorem setRxOut_cfg (x : List Byte) : (s.setRxOut x).cfg = s.cfg := rfl
@[simp] theorem setRxOut_tx (x : List Byte) : (s.setRxOut x).tx = s.tx := rfl
@[simp] theorem setRxOut_rx (x : List Byte) : (s.setRxOut x).rx = s.rx := rfl
@[simp] theorem setRxOut_rxOut (x : List Byte) : (s.setRxOut x).rxOut = x := rfl
@[simp] theorem setRxOut_errTxc (x : List Byte) : (s.setRxOut x).errTxc = s.errTxc := rfl
@[simp] theorem setRxOut_errRxi (x : List Byte) : (s.setRxOut x).errRxi = s.errRxi := rfl
@[simp] theorem setRxOut_rst (x : List Byte) : (s.setRxOut x).rst = s.rst := rfl
@[simp] theorem setRxOut_txcIn (x : List Byte) : (s.setRxOut x).txcIn = s.txcIn := rfl
@[simp] theorem setRxOut_rxiIn (x : List Byte) : (s.setRxOut x).rxiIn = s.rxiIn := rfl
@[simp] theorem setRxOut_csrIn (x : List Byte) : (s.setRxOut x).csrIn = s.csrIn := rfl
@[simp] theorem setRxOut_txsOut (x : List Byte) : (s.setRxOut x).txsOut = s.txsOut := rfl
@[simp] theorem setRxOut_rxoOut (x : List Byte) : (s.setRxOut x).rxoOut = s.rxoOut := rfl
@[simp] theorem setRxOut_csrOut (x : List Byte) : (s.setRxOut x).csrOut = s.csrOut := rfl
@[simp] theorem setRxOut_turns (x : List Byte) : (s.setRxOut x).turns = s.turns := rfl
@[simp] theorem setRxOut_self : s.setRxOut s.rxOut = s := rfl
@[simp] theorem setRxOut_setRxOut (x y : List Byte) : (s.setRxOut x).setRxOut y = s.setRxOut y := rfl

/-! ## errTxc -/

@[simp] theorem setErrTxc_cfg (x : Bool) : (s.setErrTxc x).cfg = s.cfg := rfl
@[simp] theorem setErrTxc_tx (x : Bool) : (s.setErrTxc x).tx = s.tx := rfl
@[simp] theorem setErrTxc_rx (x : Bool) : (s.setErrTxc x).rx = s.rx := rfl
@[simp] theorem setErrTxc_rxOut (x : Bool) : (s.setErrTxc x).rxOut = s.rxOut := rfl
@[simp] theorem setErrTxc_errTxc (x : Bool) : (s.setErrTxc x).errTxc = x := rfl
@[simp] theorem setErrTxc_errRxi (x : Bool) : (s.setErrTxc x).errRxi = s.errRxi := rfl
@[simp] theorem setErrTxc_rst (x : Bool) : (s.setErrTxc x).rst = s.rst := rfl
@[simp] theorem setErrTxc_txcIn (x : Bool) : (s.setErrTxc x).txcIn = s.txcIn := rfl
@[simp] theorem setErrTxc_rxiIn (x : Bool) : (s.setErrTxc x).rxiIn = s.rxiIn := rfl
@[simp] theorem setErrTxc_csrIn (x : Bool) : (s.setErrTxc x).csrIn = s.csrIn := rfl
@[simp] theorem setErrTxc_txsOut (x : Bool) : (s.setErrTxc x).txsOut = s.txsOut := rfl
@[simp] theorem setErrTxc_rxoOut (x : Bool) : (s.setErrTxc x).rxoOut = s.rxoOut := rfl
@[simp] theorem setErrTxc_csrOut (x : Bool) : (s.setErrTxc x).csrOut = s.csrOut := rfl
@[simp] theorem setErrTxc_turns (x : Bool) : (s.setErrTxc x).turns = s.turns := rfl
@[simp] theorem setErrTxc_self : s.setErrTxc s.errTxc = s := rfl
@[simp] theorem setErrTxc_setErrTxc (x y : Bool) : (s.setErrTxc x).setErrTxc y = s.setErrTxc y := rfl

/-! ## errRxi -/

@[simp] theorem setErrRxi_cfg (x : Bool) : (s.setErrRxi x).cfg = s.cfg := rfl
@[simp] theorem setErrRxi_tx (x : Bool) : (s.setErrRxi x).tx = s.tx := rfl
@[simp] theorem setErrRxi_rx (x : Bool) : (s.setErrRxi x).rx = s.rx := rfl
@[simp] theorem setErrRxi_rxOut (x : Bool) : (s.setErrRxi x).rxOut = s.rxOut := rfl
@[simp] theorem setErrRxi_errTxc (x : Bool) : (s.setErrRxi x).errTxc = s.errTxc := rfl
@[simp] theorem setErrRxi_errRxi (x : Bool) : (s.setErrRxi x).errRxi = x := rfl
@[simp] theorem setErrRxi_rst (x : Bool) : (s.setErrRxi x).rst = s.rst := rfl
@[simp] theorem setErrRxi_txcIn (x : Bool) : (s.setErrRxi x).txcIn = s.txcIn := rfl
@[simp] theorem setErrRxi_rxiIn (x : Bool) : (s.setErrRxi x).rxiIn = s.rxiIn := rfl
@[simp] theorem setErrRxi_csrIn (x : Bool) : (s.setErrRxi x).csrIn = s.csrIn := rfl
@[simp] theorem setErrRxi_txsOut (x : Bool) : (s.setErrRxi x).txsOut = s.txsOut := rfl
@[simp] theorem setErrRxi_rxoOut (x : Bool) : (s.setErrRxi x).rxoOut = s.rxoOut := rfl
@[simp] theorem setErrRxi_csrOut (x : Bool) : (s.setErrRxi x).csrOut = s.csrOut := rfl
@[simp] theorem setErrRxi_turns (x : Bool) : (s.setErrRxi x).turns = s.turns := rfl
@[simp] theorem setErrRxi_self : s.setErrRxi s.errRxi = s := rfl
@[simp] theorem setErrRxi_setErrRxi (x y : Bool) : (s.setErrRxi x).setErrRxi y = s.setErrRxi y := rfl

/-! ## rst -/

@[simp] theorem setRst_cfg (x : Bool) : (s.setRst x).cfg = s.cfg := rfl
@[simp] theorem setRst_tx (x : Bool) : (s.setRst x).tx = s.tx := rfl
@[simp] theorem setRst_rx (x : Bool) : (s.setRst x).rx = s.rx := rfl
@[simp] theorem setRst_rxOut (x : Bool) : (s.setRst x).rxOut = s.rxOut := rfl
@[simp] theorem setRst_errTxc (x : Bool) : (s.setRst x).errTxc = s.errTxc := rfl
@[simp] theorem setRst_errRxi (x : Bool) : (s.setRst x).errRxi = s.errRxi := rfl
@[simp] theorem setRst_rst (x : Bool) : (s.setRst x).rst = x := rfl
@[simp] theorem setRst_txcIn (x : Bool) : (s.setRst x).txcIn = s.txcIn := rfl
@[simp] theorem setRst_rxiIn (x : Bool) : (s.setRst x).rxiIn = s.rxiIn := rfl
@[simp] theorem setRst_csrIn (x : Bool) : (s.setRst x).csrIn = s.csrIn := rfl
@[simp] theorem setRst_txsOut (x : Bool) : (s.setRst x).txsOut = s.txsOut := rfl
@[simp] theorem setRst_rxoOut (x : Bool) : (s.setRst x).rxoOut = s.rxoOut := rfl
@[simp] theorem setRst_csrOut (x : Bool) : (s.setRst x).csrOut = s.csrOut := rfl
@[simp] theorem setRst_turns (x : Bool) : (s.setRst x).turns = s.turns := rfl
@[simp] theorem setRst_self : s.setRst s.rst = s := rfl
@[simp] theorem setRst_setRst (x y : Bool) : (s.setRst x).setRst y = s.setRst y := rfl

/-! ## txcIn -/

@[simp] theorem setTxcIn_cfg (x : List TxcWord) : (s.setTxcIn x).cfg = s.cfg := rfl
@[simp] theorem setTxcIn_tx (x : List TxcWord) : (s.setTxcIn x).tx = s.tx := rfl
@[simp] theorem setTxcIn_rx (x : List TxcWord) : (s.setTxcIn x).rx = s.rx := rfl
@[simp] theorem setTxcIn_rxOut (x : List TxcWord) : (s.setTxcIn x).rxOut = s.rxOut := rfl
@[simp] theorem setTxcIn_errTxc (x : List TxcWord) : (s.setTxcIn x).errTxc = s.errTxc := rfl
@[simp] theorem setTxcIn_errRxi (x : List TxcWord) : (s.setTxcIn x).errRxi = s.errRxi := rfl
@[simp] theorem setTxcIn_rst (x : List TxcWord) : (s.setTxcIn x).rst = s.rst := rfl
@[simp] theorem setTxcIn_txcIn (x : List TxcWord) : (s.setTxcIn x).txcIn = x := rfl
@[simp] theorem setTxcIn_rxiIn (x : List TxcWord) : (s.setTxcIn x).rxiIn = s.rxiIn := rfl
@[simp] theorem setTxcIn_csrIn (x : List TxcWord) : (s.setTxcIn x).csrIn = s.csrIn := rfl
@[simp] theorem setTxcIn_txsOut (x : List TxcWord) : (s.setTxcIn x).txsOut = s.txsOut := rfl
@[simp] theorem setTxcIn_rxoOut (x : List TxcWord) : (s.setTxcIn x).rxoOut = s.rxoOut := rfl
@[simp] theorem setTxcIn_csrOut (x : List TxcWord) : (s.setTxcIn x).csrOut = s.csrOut := rfl
@[simp] theorem setTxcIn_turns (x : List TxcWord) : (s.setTxcIn x).turns = s.turns := rfl
@[simp] theorem setTxcIn_self : s.setTxcIn s.txcIn = s := rfl
@[simp] theorem setTxcIn_setTxcIn (x y : List TxcWord) : (s.setTxcIn x).setTxcIn y = s.setTxcIn y := rfl

/-! ## rxiIn -/

@[simp] theorem setRxiIn_cfg (x : List RxiWord) : (s.setRxiIn x).cfg = s.cfg := rfl
@[simp] theorem setRxiIn_tx (x : List RxiWord) : (s.setRxiIn x).tx = s.tx := rfl
@[simp] theorem setRxiIn_rx (x : List RxiWord) : (s.setRxiIn x).rx = s.rx := rfl
@[simp] theorem setRxiIn_rxOut (x : List RxiWord) : (s.setRxiIn x).rxOut = s.rxOut := rfl
@[simp] theorem setRxiIn_errTxc (x : List RxiWord) : (s.setRxiIn x).errTxc = s.errTxc := rfl
@[simp] theorem setRxiIn_errRxi (x : List RxiWord) : (s.setRxiIn x).errRxi = s.errRxi := rfl
@[simp] theorem setRxiIn_rst (x : List RxiWord) : (s.setRxiIn x).rst = s.rst := rfl
@[simp] theorem setRxiIn_txcIn (x : List RxiWord) : (s.setRxiIn x).txcIn = s.txcIn := rfl
@[simp] theorem setRxiIn_rxiIn (x : List RxiWord) : (s.setRxiIn x).rxiIn = x := rfl
@[simp] theorem setRxiIn_csrIn (x : List RxiWord) : (s.setRxiIn x).csrIn = s.csrIn := rfl
@[simp] theorem setRxiIn_txsOut (x : List RxiWord) : (s.setRxiIn x).txsOut = s.txsOut := rfl
@[simp] theorem setRxiIn_rxoOut (x : List RxiWord) : (s.setRxiIn x).rxoOut = s.rxoOut := rfl
@[simp] theorem setRxiIn_csrOut (x : List RxiWord) : (s.setRxiIn x).csrOut = s.csrOut := rfl
@[simp] theorem setRxiIn_turns (x : List RxiWord) : (s.setRxiIn x).turns = s.turns := rfl
@[simp] theorem setRxiIn_self : s.setRxiIn s.rxiIn = s := rfl
@[simp] theorem setRxiIn_setRxiIn (x y : List RxiWord) : (s.setRxiIn x).setRxiIn y = s.setRxiIn y := rfl

/-! ## csrIn -/

@[simp] theorem setCsrIn_cfg (x : List CsrReq) : (s.setCsrIn x).cfg = s.cfg := rfl
@[simp] theorem setCsrIn_tx (x : List CsrReq) : (s.setCsrIn x).tx = s.tx := rfl
@[simp] theorem setCsrIn_rx (x : List CsrReq) : (s.setCsrIn x).rx = s.rx := rfl
@[simp] theorem setCsrIn_rxOut (x : List CsrReq) : (s.setCsrIn x).rxOut = s.rxOut := rfl
@[simp] theorem setCsrIn_errTxc (x : List CsrReq) : (s.setCsrIn x).errTxc = s.errTxc := rfl
@[simp] theorem setCsrIn_errRxi (x : List CsrReq) : (s.setCsrIn x).errRxi = s.errRxi := rfl
@[simp] theorem setCsrIn_rst (x : List CsrReq) : (s.setCsrIn x).rst = s.rst := rfl
@[simp] theorem setCsrIn_txcIn (x : List CsrReq) : (s.setCsrIn x).txcIn = s.txcIn := rfl
@[simp] theorem setCsrIn_rxiIn (x : List CsrReq) : (s.setCsrIn x).rxiIn = s.rxiIn := rfl
@[simp] theorem setCsrIn_csrIn (x : List CsrReq) : (s.setCsrIn x).csrIn = x := rfl
@[simp] theorem setCsrIn_txsOut (x : List CsrReq) : (s.setCsrIn x).txsOut = s.txsOut := rfl
@[simp] theorem setCsrIn_rxoOut (x : List CsrReq) : (s.setCsrIn x).rxoOut = s.rxoOut := rfl
@[simp] theorem setCsrIn_csrOut (x : List CsrReq) : (s.setCsrIn x).csrOut = s.csrOut := rfl
@[simp] theorem setCsrIn_turns (x : List CsrReq) : (s.setCsrIn x).turns = s.turns := rfl
@[simp] theorem setCsrIn_self : s.setCsrIn s.csrIn = s := rfl
@[simp] theorem setCsrIn_setCsrIn (x y : List CsrReq) : (s.setCsrIn x).setCsrIn y = s.setCsrIn y := rfl

/-! ## txsOut -/

@[simp] theorem setTxsOut_cfg (x : List Byte) : (s.setTxsOut x).cfg = s.cfg := rfl
@[simp] theorem setTxsOut_tx (x : List Byte) : (s.setTxsOut x).tx = s.tx := rfl
@[simp] theorem setTxsOut_rx (x : List Byte) : (s.setTxsOut x).rx = s.rx := rfl
@[simp] theorem setTxsOut_rxOut (x : List Byte) : (s.setTxsOut x).rxOut = s.rxOut := rfl
@[simp] theorem setTxsOut_errTxc (x : List Byte) : (s.setTxsOut x).errTxc = s.errTxc := rfl
@[simp] theorem setTxsOut_errRxi (x : List Byte) : (s.setTxsOut x).errRxi = s.errRxi := rfl
@[simp] theorem setTxsOut_rst (x : List Byte) : (s.setTxsOut x).rst = s.rst := rfl
@[simp] theorem setTxsOut_txcIn (x : List Byte) : (s.setTxsOut x).txcIn = s.txcIn := rfl
@[simp] theorem setTxsOut_rxiIn (x : List Byte) : (s.setTxsOut x).rxiIn = s.rxiIn := rfl
@[simp] theorem setTxsOut_csrIn (x : List Byte) : (s.setTxsOut x).csrIn = s.csrIn := rfl
@[simp] theorem setTxsOut_txsOut (x : List Byte) : (s.setTxsOut x).txsOut = x := rfl
@[simp] theorem setTxsOut_rxoOut (x : List Byte) : (s.setTxsOut x).rxoOut = s.rxoOut := rfl
@[simp] theorem setTxsOut_csrOut (x : List Byte) : (s.setTxsOut x).csrOut = s.csrOut := rfl
@[simp] theorem setTxsOut_turns (x : List Byte) : (s.setTxsOut x).turns = s.turns := rfl
@[simp] theorem setTxsOut_self : s.setTxsOut s.txsOut = s := rfl
@[simp] theorem setTxsOut_setTxsOut (x y : List Byte) : (s.setTxsOut x).setTxsOut y = s.setTxsOut y := rfl

/-! ## rxoOut -/

@[simp] theorem setRxoOut_cfg (x : List Byte) : (s.setRxoOut x).cfg = s.cfg := rfl
@[simp] theorem setRxoOut_tx (x : List Byte) : (s.setRxoOut x).tx = s.tx := rfl
@[simp] theorem setRxoOut_rx (x : List Byte) : (s.setRxoOut x).rx = s.rx := rfl
@[simp] theorem setRxoOut_rxOut (x : List Byte) : (s.setRxoOut x).rxOut = s.rxOut := rfl
@[simp] theorem setRxoOut_errTxc (x : List Byte) : (s.setRxoOut x).errTxc = s.errTxc := rfl
@[simp] theorem setRxoOut_errRxi (x : List Byte) : (s.setRxoOut x).errRxi = s.errRxi := rfl
@[simp] theorem setRxoOut_rst (x : List Byte) : (s.setRxoOut x).rst = s.rst := rfl
@[simp] theorem setRxoOut_txcIn (x : List Byte) : (s.setRxoOut x).txcIn = s.txcIn := rfl
@[simp] theorem setRxoOut_rxiIn (x : List Byte) : (s.setRxoOut x).rxiIn = s.rxiIn := rfl
@[simp] theorem setRxoOut_csrIn (x : List Byte) : (s.setRxoOut x).csrIn = s.csrIn := rfl
@[simp] theorem setRxoOut_txsOut (x : List Byte) : (s.setRxoOut x).txsOut = s.txsOut := rfl
@[simp] theorem setRxoOut_rxoOut (x : List Byte) : (s.setRxoOut x).rxoOut = x := rfl
@[simp] theorem setRxoOut_csrOut (x : List Byte) : (s.setRxoOut x).csrOut = s.csrOut := rfl
@[simp] theorem setRxoOut_turns (x : List Byte) : (s.setRxoOut x).turns = s.turns := rfl
@[simp] theorem setRxoOut_self : s.setRxoOut s.rxoOut = s := rfl
@[simp] theorem setRxoOut_setRxoOut (x y : List Byte) : (s.setRxoOut x).setRxoOut y = s.setRxoOut y := rfl

/-! ## csrOut -/

@[simp] theorem setCsrOut_cfg (x : List CsrWord) : (s.setCsrOut x).cfg = s.cfg := rfl
@[simp] theorem setCsrOut_tx (x : List CsrWord) : (s.setCsrOut x).tx = s.tx := rfl
@[simp] theorem setCsrOut_rx (x : List CsrWord) : (s.setCsrOut x).rx = s.rx := rfl
@[simp] theorem setCsrOut_rxOut (x : List CsrWord) : (s.setCsrOut x).rxOut = s.rxOut := rfl
@[simp] theorem setCsrOut_errTxc (x : List CsrWord) : (s.setCsrOut x).errTxc = s.errTxc := rfl
@[simp] theorem setCsrOut_errRxi (x : List CsrWord) : (s.setCsrOut x).errRxi = s.errRxi := rfl
@[simp] theorem setCsrOut_rst (x : List CsrWord) : (s.setCsrOut x).rst = s.rst := rfl
@[simp] theorem setCsrOut_txcIn (x : List CsrWord) : (s.setCsrOut x).txcIn = s.txcIn := rfl
@[simp] theorem setCsrOut_rxiIn (x : List CsrWord) : (s.setCsrOut x).rxiIn = s.rxiIn := rfl
@[simp] theorem setCsrOut_csrIn (x : List CsrWord) : (s.setCsrOut x).csrIn = s.csrIn := rfl
@[simp] theorem setCsrOut_txsOut (x : List CsrWord) : (s.setCsrOut x).txsOut = s.txsOut := rfl
@[simp] theorem setCsrOut_rxoOut (x : List CsrWord) : (s.setCsrOut x).rxoOut = s.rxoOut := rfl
@[simp] theorem setCsrOut_csrOut (x : List CsrWord) : (s.setCsrOut x).csrOut = x := rfl
@[simp] theorem setCsrOut_turns (x : List CsrWord) : (s.setCsrOut x).turns = s.turns := rfl
@[simp] theorem setCsrOut_self : s.setCsrOut s.csrOut = s := rfl
@[simp] theorem setCsrOut_setCsrOut (x y : List CsrWord) : (s.setCsrOut x).setCsrOut y = s.setCsrOut y := rfl

/-! ## turns -/

@[simp] theorem setTurns_cfg (x : List Turn) : (s.setTurns x).cfg = s.cfg := rfl
@[simp] theorem setTurns_tx (x : List Turn) : (s.setTurns x).tx = s.tx := rfl
@[simp] theorem setTurns_rx (x : List Turn) : (s.setTurns x).rx = s.rx := rfl
@[simp] theorem setTurns_rxOut (x : List Turn) : (s.setTurns x).rxOut = s.rxOut := rfl
@[simp] theorem setTurns_errTxc (x : List Turn) : (s.setTurns x).errTxc = s.errTxc := rfl
@[simp] theorem setTurns_errRxi (x : List Turn) : (s.setTurns x).errRxi = s.errRxi := rfl
@[simp] theorem setTurns_rst (x : List Turn) : (s.setTurns x).rst = s.rst := rfl
@[simp] theorem setTurns_txcIn (x : List Turn) : (s.setTurns x).txcIn = s.txcIn := rfl
@[simp] theorem setTurns_rxiIn (x : List Turn) : (s.setTurns x).rxiIn = s.rxiIn := rfl
@[simp] theorem setTurns_csrIn (x : List Turn) : (s.setTurns x).csrIn = s.csrIn := rfl
@[simp] theorem setTurns_txsOut (x : List Turn) : (s.setTurns x).txsOut = s.txsOut := rfl
@[simp] theorem setTurns_rxoOut (x : List Turn) : (s.setTurns x).rxoOut = s.rxoOut := rfl
@[simp] theorem setTurns_csrOut (x : List Turn) : (s.setTurns x).csrOut = s.csrOut := rfl
@[simp] theorem setTurns_turns (x : List Turn) : (s.setTurns x).turns = x := rfl
@[simp] theorem setTurns_self : s.setTurns s.turns = s := rfl
@[simp] theorem setTurns_setTurns (x y : List Turn) : (s.setTurns x).setTurns y = s.setTurns y := rfl

end Sys2Proof.Machine
end

