-- ==== Sys2Proof/Laws/Ops.lean ====
section
/-!
SUPPORT. One lemma per shared operation that says everything it can do: the gates of the three ports, consuming a word,
accepting a transaction, and a turn.
-/

namespace Sys2Proof.Machine

variable {s t : State} {f : State → State}

/-! ## The gates -/

theorem onTxc_of_ready (hl : legal s.cfg = true) (hr : s.tx.busy = false) : onTxc f s = .next (f s) := by
  simp [onTxc, txcReady, hl, hr]

theorem onTxc_of_busy (hl : legal s.cfg = true) (hb : s.tx.busy = true) : onTxc f s = .next s := by
  simp [onTxc, txcReady, hl, hb]

theorem onTxc_of_illegal (hl : legal s.cfg = false) : onTxc f s = .refused .illegalConfig := by
  simp [onTxc, hl]

/-- Everything a transmit transaction can do. -/
theorem onTxc_next_cases (h : onTxc f s = .next t) :
    legal s.cfg = true ∧ ((s.tx.busy = false ∧ t = f s) ∨ (s.tx.busy = true ∧ t = s)) := by
  cases hl : legal s.cfg
  · simp [onTxc_of_illegal hl] at h
  · cases hb : s.tx.busy
    · rw [onTxc_of_ready hl hb] at h
      exact ⟨rfl, .inl ⟨rfl, (Host.Outcome.next.inj h).symm⟩⟩
    · rw [onTxc_of_busy hl hb] at h
      exact ⟨rfl, .inr ⟨rfl, (Host.Outcome.next.inj h).symm⟩⟩

theorem onRxi_of_ready (hl : legal s.cfg = true) (hr : rxStall s = false) : onRxi f s = .next (f s) := by
  simp [onRxi, rxiReady, hl, hr]

theorem onRxi_of_stall (hl : legal s.cfg = true) (hr : rxStall s = true) : onRxi f s = .next s := by
  simp [onRxi, rxiReady, hl, hr]

theorem onRxi_of_illegal (hl : legal s.cfg = false) : onRxi f s = .refused .illegalConfig := by
  simp [onRxi, hl]

/-- Everything a receive transaction can do. -/
theorem onRxi_next_cases (h : onRxi f s = .next t) :
    legal s.cfg = true ∧ ((rxStall s = false ∧ t = f s) ∨ (rxStall s = true ∧ t = s)) := by
  cases hl : legal s.cfg
  · simp [onRxi_of_illegal hl] at h
  · cases hb : rxStall s
    · rw [onRxi_of_ready hl hb] at h
      exact ⟨rfl, .inl ⟨rfl, (Host.Outcome.next.inj h).symm⟩⟩
    · rw [onRxi_of_stall hl hb] at h
      exact ⟨rfl, .inr ⟨rfl, (Host.Outcome.next.inj h).symm⟩⟩

theorem onCsr_of_legal (hl : legal s.cfg = true) : onCsr f s = .next (f s) := by
  simp [onCsr, hl]

theorem onCsr_of_illegal (hl : legal s.cfg = false) : onCsr f s = .refused .illegalConfig := by
  simp [onCsr, hl]

/-- Everything a control-register access can do. -/
theorem onCsr_next_cases (h : onCsr f s = .next t) : legal s.cfg = true ∧ t = f s := by
  cases hl : legal s.cfg
  · simp [onCsr_of_illegal hl] at h
  · rw [onCsr_of_legal hl] at h
    exact ⟨rfl, (Host.Outcome.next.inj h).symm⟩

/-! ## Consuming a word and accepting a transaction -/

/-- Everything an acceptance can be: the word leaves the head of its port's stream and nothing else changes. -/
theorem accept_cases {p : InPort} {i : Instr} (h : accept p s = some (i, t)) :
    (p = .txc ∧ s.tx.busy = false ∧ ∃ w ws, s.txcIn = w :: ws ∧ i = decodeTxc w ∧ t = s.setTxcIn ws)
      ∨ (p = .rxi ∧ rxStall s = false ∧ ∃ w ws, s.rxiIn = w :: ws ∧ i = decodeRxi w ∧ t = s.setRxiIn ws)
      ∨ (p = .csr ∧ ∃ q qs, s.csrIn = q :: qs ∧ i = decodeCsr q ∧ t = s.setCsrIn qs) := by
  cases p with
  | txc =>
    cases hb : s.tx.busy
    · cases hw : s.txcIn with
      | nil => simp [accept, takeWord, hw] at h
      | cons w ws =>
        simp [accept, portReady, txcReady, takeWord, hb, hw, decode] at h
        exact .inl ⟨rfl, rfl, w, ws, rfl, h.1.symm, h.2.symm⟩
    · simp [accept, portReady, txcReady, hb] at h
  | rxi =>
    cases hb : rxStall s
    · cases hw : s.rxiIn with
      | nil => simp [accept, takeWord, hw] at h
      | cons w ws =>
        simp [accept, portReady, rxiReady, takeWord, hb, hw, decode] at h
        exact .inr (.inl ⟨rfl, rfl, w, ws, rfl, h.1.symm, h.2.symm⟩)
    · simp [accept, portReady, rxiReady, hb] at h
  | csr =>
    cases hw : s.csrIn with
    | nil => simp [accept, takeWord, hw] at h
    | cons q qs =>
      simp [accept, portReady, takeWord, hw, decode] at h
      exact .inr (.inr ⟨rfl, q, qs, rfl, h.1.symm, h.2.symm⟩)

/-! ## Turns -/

theorem transact_of_rst {p : InPort} (hr : s.rst = true) : transact p s = .next s := by
  simp [transact, hr]

theorem transact_of_accept {p : InPort} {i : Instr} (hr : s.rst = false) (ha : accept p s = some (i, t)) :
    transact p s = exec i t := by
  simp [transact, hr, ha]

theorem transact_of_wait {p : InPort} (ha : accept p s = none) : transact p s = .next s := by
  simp [transact, ha]

/-- Everything the turn of a transaction port can do. -/
theorem transact_next_cases {p : InPort} (h : transact p s = .next t) :
    t = s ∨ (s.rst = false ∧ ∃ i s', accept p s = some (i, s') ∧ exec i s' = .next t) := by
  cases hr : s.rst
  · cases ha : accept p s with
    | none => rw [transact_of_wait ha] at h; exact .inl (Host.Outcome.next.inj h).symm
    | some a => rw [transact_of_accept hr ha] at h; exact .inr ⟨rfl, a.1, a.2, rfl, h⟩
  · rw [transact_of_rst hr] at h
    exact .inl (Host.Outcome.next.inj h).symm

theorem step_of_illegal (hl : legal s.cfg = false) : step s = .refused .illegalConfig := by
  simp [step, takeTurn, hl]

theorem step_of_no_turn (hl : legal s.cfg = true) (ht : s.turns = []) : step s = .next s := by
  simp [step, takeTurn, hl, ht]

theorem step_of_turn {u : Turn} {us : List Turn} (hl : legal s.cfg = true) (ht : s.turns = u :: us) :
    step s = runTurn u (s.setTurns us) := by
  simp [step, takeTurn, hl, ht]

/-- Everything a step can do. -/
theorem step_next_cases (h : step s = .next t) :
    legal s.cfg = true ∧ ((s.turns = [] ∧ t = s) ∨ ∃ u us, s.turns = u :: us ∧ runTurn u (s.setTurns us) = .next t) := by
  cases hl : legal s.cfg
  · simp [step_of_illegal hl] at h
  · cases ht : s.turns with
    | nil => rw [step_of_no_turn hl ht] at h; exact ⟨rfl, .inl ⟨rfl, (Host.Outcome.next.inj h).symm⟩⟩
    | cons u us => rw [step_of_turn hl ht] at h; exact ⟨rfl, .inr ⟨u, us, rfl, h⟩⟩

end Sys2Proof.Machine
end

