-- ==== Sys2Proof/Laws/Params.lean ====
section
/-!
SUPPORT. What a legal parameter set gives, bound by bound (00_scope.md rule R8), and that the default set is legal.
-/

namespace Sys2Proof.Machine

variable {c : Config}

theorem default_legal : legal Config.default = true := by decide

theorem halfOne_pos (h : legal c = true) : 1 ≤ halfOne c := by
  simp [legal, legalTones] at h; omega

theorem halfZero_pos (h : legal c = true) : 1 ≤ halfZero c := by
  simp [legal, legalTones] at h; omega

/-- A half-length fits the 32-bit counter tx_cnt (rule R8(e)). -/
theorem halfOne_lt (h : legal c = true) : halfOne c < 2 ^ 32 := by
  have : halfOne c ≤ c.sampleRate := Nat.div_le_self _ _
  simp [legal, legalWidths] at h; omega

/-- A half-length fits the 32-bit counter tx_cnt (rule R8(e)). -/
theorem halfZero_lt (h : legal c = true) : halfZero c < 2 ^ 32 := by
  have : halfZero c ≤ c.sampleRate := Nat.div_le_self _ _
  simp [legal, legalWidths] at h; omega

theorem oneRepeat_bounds (h : legal c = true) : 1 ≤ c.oneRepeat ∧ c.oneRepeat ≤ 255 := by
  simp [legal, legalCounts] at h; omega

theorem zeroRepeat_bounds (h : legal c = true) : 1 ≤ c.zeroRepeat ∧ c.zeroRepeat ≤ 255 := by
  simp [legal, legalCounts] at h; omega

theorem framesPerBit_bounds (h : legal c = true) : 1 ≤ c.framesPerBit ∧ c.framesPerBit ≤ 65535 := by
  simp [legal, legalCounts] at h; omega

theorem outDepth_pos (h : legal c = true) : 1 ≤ c.outDepth := by
  simp [legal, legalCounts] at h; omega

/-- A carrier count in seconds fits 32 bits (rule R8(d)). -/
theorem carrierCps_bound (h : legal c = true) : c.carrierCps * 65535 < 2 ^ 32 := by
  simp [legal, legalWidths] at h; omega

/-- SKIP_LEN fits the 18-bit counter rx_skip (rule R35). -/
theorem skipLen_eq (h : legal c = true) : skipLen c = 3 * c.framesPerBit - 1 := by
  have := framesPerBit_bounds h
  simp [skipLen]; omega

end Sys2Proof.Machine
end

