-- ==== Sys2Proof/Laws/Engines.lean ====
section
/-!
SUPPORT. One lemma per engine operation that says what it gives: starting a command, the delivery steps, emitting a byte,
the resets, the control-register write, and the list functions the waveforms are made of.
-/

namespace Sys2Proof.Machine

variable {s t : State}

/-! ## Lists -/

theorem rep_zero {α : Type} (l : List α) : rep 0 l = [] := rfl

theorem rep_succ {α : Type} (n : Nat) (l : List α) : rep (n + 1) l = l ++ rep n l := by
  simp [rep, List.replicate_succ]

theorem length_rep {α : Type} (n : Nat) (l : List α) : (rep n l).length = n * l.length := by
  simp [rep]

theorem length_cycle (c : Config) (h : Nat) : (cycle c h).length = 2 * h := by
  simp [cycle, length_rep]; omega

theorem edges_append (prev : Bool) (vs ws : List Byte) :
    edges prev (vs ++ ws) = edges prev vs ++ edges (vs.foldl (fun _ v => v.getLsbD 7) prev) ws := by
  induction vs generalizing prev with
  | nil => rfl
  | cons v vs ih => simp [edges, ih]

theorem length_edges (prev : Bool) (vs : List Byte) : (edges prev vs).length = vs.length := by
  induction vs generalizing prev with
  | nil => rfl
  | cons v vs ih => simp [edges, ih]

/-! ## Transmit -/

theorem startCarrier_zero : startCarrier 0 s = s := by simp [startCarrier]

theorem startCarrier_pos {n : BitVec 32} (h : n ≠ 0) : startCarrier n s = s.setTx (txStartCarrier n) := by
  rw [startCarrier, if_neg h]

/-- The carrier count of a TXC is exact (rules R90, R111). -/
theorem toNat_secondsCount {c : Config} (h : legal c = true) (n : BitVec 16) :
    (secondsCount c n).toNat = c.carrierCps * n.toNat := by
  have hc := carrierCps_bound h
  have hn := n.isLt
  have hm : c.carrierCps * n.toNat ≤ c.carrierCps * 65535 := Nat.mul_le_mul_left _ (by omega)
  simp only [secondsCount, BitVec.toNat_mul, BitVec.toNat_ofNat, BitVec.truncate_eq_setWidth, BitVec.toNat_setWidth]
  rw [Nat.mod_eq_of_lt (by omega : c.carrierCps < 2 ^ 32), Nat.mod_eq_of_lt (by omega : n.toNat < 2 ^ 32),
    Nat.mod_eq_of_lt (by omega)]

theorem txsDeliver_of_idle (h : s.tx.busy = false) : txsDeliver s = s := by
  simp [txsDeliver, txsValid, h]

theorem txsDeliver_of_busy (h : s.tx.busy = true) :
    txsDeliver s = (s.setTx (txAdvance s.cfg s.tx)).setTxsOut (s.txsOut ++ [txSample s.cfg s.tx]) := by
  simp [txsDeliver, txsValid, h]

/-- Everything a delivery can do to the transmit fields, in the order of rule R115. -/
theorem txAdvance_cases (c : Config) (x : TxEngine) :
    (x.cnt.toNat + 1 < txHalf c x ∧ txAdvance c x = { x with cnt := BitVec.ofNat 32 (x.cnt.toNat + 1) })
      ∨ (txHalf c x ≤ x.cnt.toNat + 1 ∧ x.ph = false ∧ txAdvance c x = { x with cnt := 0, ph := true })
      ∨ (txHalf c x ≤ x.cnt.toNat + 1 ∧ x.ph = true ∧ x.mode = .carrier ∧ txAdvance c x = txEndCarrierCycle x)
      ∨ (txHalf c x ≤ x.cnt.toNat + 1 ∧ x.ph = true ∧ x.mode = .frame ∧ txAdvance c x = txEndFrameCycle c x) := by
  by_cases h : x.cnt.toNat + 1 < txHalf c x
  · exact .inl ⟨h, by simp [txAdvance, h]⟩
  · have h' := Nat.le_of_not_lt h
    cases hp : x.ph
    · exact .inr (.inl ⟨h', rfl, by simp [txAdvance, h, hp]⟩)
    · cases hm : x.mode
      · exact .inr (.inr (.inr ⟨h', rfl, rfl, by simp [txAdvance, h, hp, hm]⟩))
      · exact .inr (.inr (.inl ⟨h', rfl, rfl, by simp [txAdvance, h, hp, hm]⟩))

/-! ## Receive -/

theorem emitRxo_none : emitRxo none s = s := by
  simp [emitRxo, State.setRxOut]

theorem emitRxo_some (b : Byte) : emitRxo (some b) s = s.setRxOut (s.rxOut ++ [b]) := rfl

theorem rxoDeliver_of_empty (h : s.rxOut = []) : rxoDeliver s = s := by
  simp [rxoDeliver, h]

theorem rxoDeliver_of_cons {b : Byte} {bs : List Byte} (h : s.rxOut = b :: bs) :
    rxoDeliver s = (s.setRxOut bs).setRxoOut (s.rxoOut ++ [b]) := by
  simp [rxoDeliver, h]

/-- The stall of rule R140, as its conditions. -/
theorem rxStall_iff : rxStall s = true ↔ s.rx.state = .sample ∧ s.rx.bitn = 7
    ∧ s.rx.cnt.toNat = s.cfg.framesPerBit - 1 ∧ s.rxOut.length = s.cfg.outDepth := by
  simp [rxStall, and_assoc]

/-! ## Resets and control registers -/

theorem txEngineReset_eq : txEngineReset s = s.setTx TxEngine.reset := rfl

theorem rxEngineReset_keep : rxEngineReset true s = s.setRx (RxEngine.reset s.cfg.framesPerBit) := rfl

theorem rxEngineReset_drop :
    rxEngineReset false s = (s.setRx (RxEngine.reset s.cfg.framesPerBit)).setRxOut [] := rfl

/-- What the hardware reset leaves: every field of rule R45 at its reset value, the host's side as it was. -/
theorem hardwareReset_eq : hardwareReset s =
    { s with
      tx := TxEngine.reset
      rx := RxEngine.reset s.cfg.framesPerBit
      rxOut := []
      errTxc := false
      errRxi := false
      rst := false } := rfl

/-- What a write to CTRL gives (rules R40, R181). -/
theorem writeCtrl_eq (d : CsrWord) : writeCtrl d s =
    { s with
      tx := if d.getLsbD 0 then TxEngine.reset else s.tx
      rx := if d.getLsbD 1 then RxEngine.reset s.cfg.framesPerBit else s.rx
      rxOut := if d.getLsbD 1 then [] else s.rxOut } := by
  cases h0 : d.getLsbD 0 <;> cases h1 : d.getLsbD 1 <;> simp only [writeCtrl, h0, h1] <;> rfl

/-- What a write to STATUS gives (rules R41, R181). -/
theorem writeStatus_eq (d : CsrWord) : writeStatus d s =
    { s with
      errTxc := if d.getLsbD 8 then false else s.errTxc
      errRxi := if d.getLsbD 9 then false else s.errRxi } := by
  cases h0 : d.getLsbD 8 <;> cases h1 : d.getLsbD 9 <;> simp only [writeStatus, h0, h1] <;> rfl

/-! ## Runs -/

theorem run_zero : Host.Core.run Sys2Proof.core 0 s = .next s := rfl

/-- A run that answers a next state took a step that did. -/
theorem run_succ_next {n : Nat} (h : Host.Core.run Sys2Proof.core (n + 1) s = .next t) :
    ∃ u, step s = .next u ∧ Host.Core.run Sys2Proof.core n u = .next t := by
  simp only [Host.Core.run] at h
  split at h
  · next u hu => exact ⟨u, hu, h⟩
  · exact absurd h (by simp)
  · exact absurd h (by simp)

/-- A run goes on from where its first part ends. -/
theorem run_add_of_next {a : Nat} (b : Nat) (h : Host.Core.run Sys2Proof.core a s = .next t) :
    Host.Core.run Sys2Proof.core (a + b) s = Host.Core.run Sys2Proof.core b t := by
  induction a generalizing s with
  | zero =>
    rw [run_zero] at h
    cases h
    rw [Nat.zero_add]
  | succ a ih =>
    obtain ⟨u, hu, hr⟩ := run_succ_next h
    rw [Nat.add_right_comm]
    simp only [Host.Core.run]
    rw [show Sys2Proof.core.step s = .next u from hu]
    exact ih hr

end Sys2Proof.Machine
end

