-- ==== Sys2Proof/Laws/PerInstr.lean ====
section
/-!
SUPPORT. One statement per instruction: the word the encoder gives a well-formed instruction agrees with the match and mask
of its own row of spec/opcode_table.json, and the word of a reserved form with the match of no row of its port.
-/

namespace Sys2Proof.Laws.RowMatch

/-- The encoded word against the table's match and mask (30_encoding.md rule R93). -/
def Statement : Instr → Prop
  | .txb b => ∃ w, encode (.txb b) = .txc w ∧ w &&& 0xFFFFFF00#32 = 0x10000000#32
  | .txc n => ∃ w, encode (.txc n) = .txc w ∧ w &&& 0xFFFF0000#32 = 0x20000000#32
  | .txcc n => ∃ w, encode (.txcc n) = .txc w ∧ w &&& 0xFF000000#32 = 0x30000000#32
  | .illegalTxc v => (Instr.illegalTxc v).wellFormed = true → ∃ w, encode (.illegalTxc v) = .txc w
      ∧ w &&& 0xFFFFFF00#32 ≠ 0x10000000#32 ∧ w &&& 0xFFFF0000#32 ≠ 0x20000000#32
      ∧ w &&& 0xFF000000#32 ≠ 0x30000000#32
  | .rxs v => ∃ w, encode (.rxs v) = .rxi w ∧ w &&& 0xFF00#16 = 0x0000#16
  | .rxe => ∃ w, encode .rxe = .rxi w ∧ w &&& 0xFFFF#16 = 0x0100#16
  | .illegalRxi v => (Instr.illegalRxi v).wellFormed = true → ∃ w, encode (.illegalRxi v) = .rxi w
      ∧ w &&& 0xFF00#16 ≠ 0x0000#16 ∧ w &&& 0xFFFF#16 ≠ 0x0100#16
  | .csrr i d => ∃ q, encode (.csrr i d) = .csr q ∧ q &&& 0x800000000#36 = 0x000000000#36
  | .csrw i d => ∃ q, encode (.csrw i d) = .csr q ∧ q &&& 0x800000000#36 = 0x800000000#36

theorem txb (b : BitVec 8) : Statement (.txb b) := by
  refine ⟨_, rfl, ?_⟩
  apply BitVec.eq_of_getLsbD_eq
  intro i hi
  rw [BitVec.getLsbD_and]
  interval_cases i <;> simp only [BitVec.getLsbD_append] <;> simp

theorem txc (n : BitVec 16) : Statement (.txc n) := by
  refine ⟨_, rfl, ?_⟩
  apply BitVec.eq_of_getLsbD_eq
  intro i hi
  rw [BitVec.getLsbD_and]
  interval_cases i <;> simp only [BitVec.getLsbD_append] <;> simp

theorem txcc (n : BitVec 24) : Statement (.txcc n) := by
  refine ⟨_, rfl, ?_⟩
  apply BitVec.eq_of_getLsbD_eq
  intro i hi
  rw [BitVec.getLsbD_and]
  interval_cases i <;> simp only [BitVec.getLsbD_append] <;> simp

/-- A field of a word that a mask covers is fixed by the match. -/
theorem field_of_match {n w lo : Nat} {v mask val : BitVec n} {x : BitVec w} (h : v &&& mask = val)
    (hm : mask.extractLsb' lo w = BitVec.allOnes w) (hx : val.extractLsb' lo w = x) : v.extractLsb' lo w = x := by
  rw [← hx, ← h, BitVec.extractLsb'_and, hm, BitVec.and_allOnes]

theorem illegalTxc (v : TxcWord) : Statement (.illegalTxc v) := by
  intro hr
  refine ⟨v, rfl, fun h => ?_, fun h => ?_, fun h => ?_⟩
  · have h1 := field_of_match (lo := 28) (w := 4) (x := 1#4) h (by decide) (by decide)
    have h2 := field_of_match (lo := 8) (w := 20) (x := 0#20) h (by decide) (by decide)
    simp [Instr.wellFormed, txcReserved, h1, h2] at hr
  · have h1 := field_of_match (lo := 28) (w := 4) (x := 2#4) h (by decide) (by decide)
    have h2 := field_of_match (lo := 16) (w := 12) (x := 0#12) h (by decide) (by decide)
    simp [Instr.wellFormed, txcReserved, h1, h2] at hr
  · have h1 := field_of_match (lo := 28) (w := 4) (x := 3#4) h (by decide) (by decide)
    have h2 := field_of_match (lo := 24) (w := 4) (x := 0#4) h (by decide) (by decide)
    simp [Instr.wellFormed, txcReserved, h1, h2] at hr

theorem rxs (v : BitVec 8) : Statement (.rxs v) := by
  refine ⟨_, rfl, ?_⟩
  apply BitVec.eq_of_getLsbD_eq
  intro i hi
  rw [BitVec.getLsbD_and]
  interval_cases i <;> simp only [BitVec.getLsbD_append] <;> simp

theorem rxe : Statement .rxe := ⟨_, rfl, by decide⟩

theorem illegalRxi (v : RxiWord) : Statement (.illegalRxi v) := by
  intro hr
  refine ⟨v, rfl, fun h => ?_, fun h => ?_⟩
  · have h1 := field_of_match (lo := 8) (w := 8) (x := 0#8) h (by decide) (by decide)
    simp [Instr.wellFormed, rxiReserved, h1] at hr
  · have h1 := field_of_match (lo := 8) (w := 8) (x := 1#8) h (by decide) (by decide)
    have h2 := field_of_match (lo := 0) (w := 8) (x := 0#8) h (by decide) (by decide)
    simp [Instr.wellFormed, rxiReserved, h1, h2] at hr

theorem csrr (i : BitVec 3) (d : CsrWord) : Statement (.csrr i d) := by
  refine ⟨_, rfl, ?_⟩
  apply BitVec.eq_of_getLsbD_eq
  intro i hi
  rw [BitVec.getLsbD_and]
  interval_cases i <;> simp only [BitVec.getLsbD_append] <;> simp

theorem csrw (i : BitVec 3) (d : CsrWord) : Statement (.csrw i d) := by
  refine ⟨_, rfl, ?_⟩
  apply BitVec.eq_of_getLsbD_eq
  intro i hi
  rw [BitVec.getLsbD_and]
  interval_cases i <;> simp only [BitVec.getLsbD_append] <;> simp

end Sys2Proof.Laws.RowMatch
end

