-- ==== Sys2Proof/Tests/Slice0.lean ====
section
/-!
SUPPORT. The model's own tests. Expected values come from 95_test_vectors.md, from the examples in the rules, and from
the encodings of 30_encoding.md; the witness theorems show states and operands that meet the hypotheses of the statements.
-/

namespace Sys2Proof.Machine.Tests

open Sys2Proof Sys2Proof.Machine

/-- The next state, for a test that looks at a field of it. -/
def after (r : Res) : State :=
  match r with
  | .next t => t
  | _ => State.reset

/-- Whether an outcome is a next state. -/
def isNext (r : Res) : Bool :=
  match r with
  | .next _ => true
  | _ => false

theorem eq_next_after {r : Res} (h : isNext r = true) : r = .next (after r) := by
  cases r with
  | next t => rfl
  | fault f => exact absurd h (by simp [isNext])
  | refused f => exact absurd h (by simp [isNext])

/-! ## The command script (rules R94, R95; programs of 95_test_vectors.md section 3) -/

theorem test_script_p6_words : scriptWords (Pseudo.encode [0x41] 5 0).expand
    = [.txc 0x20000005, .txc 0x10000041, .txc 0x20000000] := by decide
theorem test_script_clear_errors : scriptWords Pseudo.clearErrors.expand = [.csr 0x900000300] := by decide
theorem test_script_pull_has_no_word : scriptWords [.txw 0, .pullTxs 100, .rxw 0x0101, .pullRxo 1]
    = [.txc 0, .rxi 0x0101] := by decide

/-! ## WellFormed: an ill-formed term for each check -/

theorem test_wf_txc_refuses_txb_word : (Instr.illegalTxc 0x10000041).wellFormed = false := by decide
theorem test_wf_txc_refuses_txc_word : (Instr.illegalTxc 0x20000005).wellFormed = false := by decide
theorem test_wf_txc_refuses_txcc_word : (Instr.illegalTxc 0x30000003).wellFormed = false := by decide
theorem test_wf_txc_accepts_reserved : (Instr.illegalTxc 0x00000000).wellFormed = true := by decide
theorem test_wf_rxi_refuses_rxs_word : (Instr.illegalRxi 0x0040).wellFormed = false := by decide
theorem test_wf_rxi_refuses_rxe_word : (Instr.illegalRxi 0x0100).wellFormed = false := by decide
theorem test_wf_rxi_accepts_reserved : (Instr.illegalRxi 0x0101).wellFormed = true := by decide

/-! ## Decoding: words written out from the encodings (rules R80, R85, R89; 95_test_vectors.md 2.4, 2.5) -/

theorem test_decode_txb : decode (.txc 0b00010000000000000000000001000001#32) = .txb 0x41 := by decide
theorem test_decode_txc : decode (.txc 0b00100000000000000000000000000101#32) = .txc 5 := by decide
theorem test_decode_txcc : decode (.txc 0b00110000111111111111111111111111#32) = .txcc 16777215 := by decide
theorem test_decode_illegalTxc_zero : decode (.txc 0x00000000) = .illegalTxc 0x00000000 := by decide
theorem test_decode_illegalTxc_txb_bit8 : decode (.txc 0x10000100) = .illegalTxc 0x10000100 := by decide
theorem test_decode_illegalTxc_txc_bit16 : decode (.txc 0x20010000) = .illegalTxc 0x20010000 := by decide
theorem test_decode_illegalTxc_txcc_bit24 : decode (.txc 0x31000000) = .illegalTxc 0x31000000 := by decide
theorem test_decode_illegalTxc_op15 : decode (.txc 0xF0000000) = .illegalTxc 0xF0000000 := by decide
theorem test_decode_rxs : decode (.rxi 0b0000000011111111#16) = .rxs 0xFF := by decide
theorem test_decode_rxe : decode (.rxi 0b0000000100000000#16) = .rxe := by decide
theorem test_decode_illegalRxi_0101 : decode (.rxi 0x0101) = .illegalRxi 0x0101 := by decide
theorem test_decode_illegalRxi_8000 : decode (.rxi 0x8000) = .illegalRxi 0x8000 := by decide
theorem test_decode_csrr : decode (.csr 0b000100000000000000000000000000000000#36) = .csrr 1 0 := by decide
theorem test_decode_csrw : decode (.csr 0b100100000000000000000000001100000000#36) = .csrw 1 0x300 := by decide
theorem test_encode_txb : encode (.txb 0x41) = .txc 0x10000041 := by decide
theorem test_encode_txc : encode (.txc 65535) = .txc 0x2000FFFF := by decide
theorem test_encode_txcc : encode (.txcc 3) = .txc 0x30000003 := by decide
theorem test_encode_rxs : encode (.rxs 0xC0) = .rxi 0x00C0 := by decide
theorem test_encode_rxe : encode .rxe = .rxi 0x0100 := by decide
theorem test_encode_csrw : encode (.csrw 1 0x300) = .csr 0x900000300 := by decide

/-! ## One word from reset, through the step -/

theorem test_fetch_txb : step (State.reset.withFetchWord 32 0x10000041)
    = exec (.txb 0x41) State.reset := rfl
theorem test_fetch_rxs : step (State.reset.withFetchWord 16 0x00C0) = exec (.rxs 0xC0) State.reset := rfl
theorem test_fetch_csrr : step (State.reset.withFetchWord 40 0x100000000) = exec (.csrr 1 0) State.reset := rfl
theorem test_reset_holds : step State.reset = .next State.reset := rfl

/-! ## Transmit (95_test_vectors.md 2.1, 2.3, 2.4; rules R110 to R115) -/

/-- 2.1's table. -/
theorem test_framewords : frameword 0x00 = 0xC00 ∧ frameword 0x01 = 0xE02 ∧ frameword 0x41 = 0xC82 ∧ frameword 0x55 = 0xCAA
    ∧ frameword 0x7F = 0xEFE ∧ frameword 0x80 = 0xF00 ∧ frameword 0xAA = 0xD54 ∧ frameword 0xFE = 0xFFC
    ∧ frameword 0xFF = 0xDFE := by decide

/-- Rule R110's example: txb 0x41 sets tx_frame = 0xC82. -/
theorem test_txb : (after (exec (.txb 0x41) State.reset)).tx.frame = 0xC82
    ∧ (after (exec (.txb 0x41) State.reset)).tx.busy = true := by decide
/-- Rule R111's example: txc 5 sets tx_left = 12000; 2.4: TXC 65535. -/
theorem test_txc : (after (exec (.txc 5) State.reset)).tx.left = 12000
    ∧ (after (exec (.txc 65535) State.reset)).tx.left = 157284000 := by decide
/-- 2.4: TXCC 16777215. -/
theorem test_txcc_max : (after (exec (.txcc 0xFFFFFF) State.reset)).tx.left = 16777215 := by decide
/-- 2.4: TXCC 0 changes nothing (decision D33). -/
theorem test_txcc_zero : exec (.txcc 0) State.reset = .next State.reset := rfl
/-- Rule R113's example: STATUS is 0x00000100 after one reserved word. -/
theorem test_illegalTxc : statusWord (after (exec (.illegalTxc 0x40000000) State.reset)) = 0x100 := by decide

/-- A transmit engine at a place of 2.3's table, sending 0x41. -/
def sending (bit : BitVec 4) (cyc : BitVec 8) (ph : Bool) (cnt : BitVec 32) : TxEngine :=
  { txStartFrame 0x41 with bit := bit, cyc := cyc, ph := ph, cnt := cnt }

/-- 2.3: k = 3 to 4, 31 to 32 and 383 to 384. -/
theorem test_deliver_frame : txAdvance Config.default (sending 0 0 false 3) = sending 0 0 true 0
    ∧ txAdvance Config.default (sending 0 3 true 3) = sending 1 0 false 0
    ∧ txAdvance Config.default (sending 11 7 true 1) = TxEngine.reset := by decide
/-- 2.3, txcc 2: k = 3 to 4 and 7 to 8. -/
theorem test_deliver_carrier : txAdvance Config.default { txStartCarrier 2 with ph := true, cnt := 1 } = txStartCarrier 1
    ∧ txAdvance Config.default { txStartCarrier 1 with ph := true, cnt := 1 } = TxEngine.reset := by decide

/-! ## Receive (95_test_vectors.md 2.5 to 2.9; rules R141 to R152) -/

/-- 2.6. -/
theorem test_edges : edges false [0x40, 0x40, 0xC0, 0xC0, 0x40] = [false, false, true, false, true]
    ∧ edges false [0x7F, 0x80, 0xFF, 0x00] = [false, true, false, true] := by decide

/-- 2.7: the engine after FILL took ten 1s and twenty-two 0s. -/
def tenOnes : RxEngine :=
  { RxEngine.reset 32 with
    state := .seek, win := List.replicate 10 true ++ List.replicate 22 false, fill := 32, sum := 10 }

/-- An engine with one bit left to skip (rule R146). -/
def lastSkip : RxEngine := { RxEngine.reset 32 with state := .skip, win := List.replicate 32 false, fill := 32, skip := 1 }

/-- 2.8: an engine that has one sign-change bit of a data bit to go. -/
def lastOfBit (acc : BitVec 17) (bitn : BitVec 4) : RxEngine :=
  { RxEngine.reset 32 with
    state := .sample, win := List.replicate 32 false, fill := 32, acc := acc, cnt := 31, bitn := bitn }

/-- Rule R150's example; 2.7: a sum of exactly TS detects, TS + 1 does not; the last skipped bit clears the window. -/
theorem test_rxs_window : (after (exec (.rxs 0xC0) State.reset)).rx.sum = 1
    ∧ (after (exec (.rxs 0xC0) State.reset)).rx.prev = true
    ∧ (rxTake Config.default 0x00 tenOnes).1.state = .sample ∧ (rxTake Config.default 0x80 tenOnes).1.state = .seek
    ∧ (rxTake Config.default 0x00 lastSkip).1 = RxEngine.reset 32 := by decide
/-- 2.8: a sum of exactly T1 = 12 sets the bit, 11 does not; the eighth bit brings the byte out and 95 bits to skip. -/
theorem test_rxs_sample : (rxTake Config.default 0x80 (lastOfBit 11 0)).1.byte = 0x01
    ∧ (rxTake Config.default 0x80 (lastOfBit 10 0)).1.byte = 0x00
    ∧ (rxTake Config.default 0x80 (lastOfBit 31 7)).2 = some 0x80
    ∧ (rxTake Config.default 0x00 (lastOfBit 0 7)).1.skip = 95 := by decide

/-- 2.9, stall: with OD = 1 and a byte in rx_out the engine stalls there, STATUS 0x0000000A. -/
def stalled : State := { State.reset with rx := lastOfBit 0 7, rxOut := [0x41] }
theorem test_stall : statusWord stalled = 0x0000000A ∧ rxiReady stalled = false := by decide

/-- 2.5: RXE at reset changes nothing; rule R151: in a byte it resets the engine. -/
theorem test_rxe_reset : exec .rxe State.reset = .next State.reset := rfl
theorem test_rxe_mid_byte : (after (exec .rxe { State.reset with rx := lastOfBit 5 5 })).rx = RxEngine.reset 32 := by decide
/-- 2.5: a reserved word sets ERR_RXI and is no sample. -/
theorem test_illegalRxi : (after (exec (.illegalRxi 0x0200) State.reset)).errRxi = true
    ∧ (after (exec (.illegalRxi 0x0200) State.reset)).rx.fill = 0 := by decide

/-! ## Control registers (95_test_vectors.md 2.10; rules R180, R181) -/

def bothErrors : State := { State.reset with tx := txStartFrame 0x41, errTxc := true, errRxi := true }
theorem test_csrr : (after (exec (.csrr 1 0) bothErrors)).csrOut = [0x00000301]
    ∧ (after (exec (.csrr 5 0) bothErrors)).csrOut = [0x00000000] := by decide
theorem test_csrw : statusWord (after (exec (.csrw 0 0x1) bothErrors)) = 0x00000300
    ∧ statusWord (after (exec (.csrw 1 0x100) bothErrors)) = 0x00000201 := by decide

/-! ## Witnesses: states and operands that meet the hypotheses of each statement together -/

/-- A block with N = 1, one-sample half-cycles and one-cycle blocks: the smallest legal one. -/
def tiny : Config :=
  { Config.default with
    sampleRate := 2, oneFreq := 1, zeroFreq := 1, oneRepeat := 1, zeroRepeat := 1, framesPerBit := 1, startThreshold := 0
    oneThreshold := 1, carrierCps := 1 }

/-- A reset block whose next turn is `u`. -/
def turn (u : Turn) : State := { State.reset with turns := [u] }

theorem witness_DecodeOfEncode : (Instr.illegalTxc 0xFFFFFFFF).wellFormed = true
    ∧ (Instr.illegalRxi 0xFFFF).wellFormed = true ∧ (Instr.txcc 0xFFFFFF).wellFormed = true := by decide

def notLegal : Config := { Config.default with amplitude := 127 }
/-- A legal block whose levels, 0 and 1, have the same bit 7. -/
def flat : Config := { Config.default with center := 1, amplitude := 0 }
theorem witness_IllegalConfigurationsAreRefused : legal (State.resetWith notLegal).cfg = false
    ∧ legal flat = true ∧ ¬ ((low flat).getLsbD 7 = false ∧ (high flat).getLsbD 7 = true) := by decide

theorem witness_LegalBlocksNeverStop : legal State.reset.cfg = true ∧ legal tiny = true := by decide

theorem witness_HardwareReset_assert : legal (turn .resetAssert).cfg = true
    ∧ (turn .resetAssert).turns = .resetAssert :: [] ∧ (turn .resetAssert).rst = false := by decide
theorem witness_HardwareReset_asserted :
    legal (turn .txs).cfg = true ∧ { turn .txs with rst := true }.turns = .txs :: [] ∧ Turn.txs ≠ .resetRelease := by decide
theorem witness_HardwareReset_released : legal (turn .resetRelease).cfg = true
    ∧ { turn .resetRelease with rst := true }.rst = true
    ∧ { turn .resetRelease with rst := true }.turns = .resetRelease :: [] := by decide
theorem witness_HardwareReset_release_alone : legal (turn .resetRelease).cfg = true
    ∧ (turn .resetRelease).turns = .resetRelease :: [] ∧ (turn .resetRelease).rst = false := by decide

/-- A busy block whose host asserts the reset input, offers a word, and releases the input. -/
def resetSequence : State :=
  { bothErrors with txcIn := [0x10000041], turns := [.resetAssert, .txc, .txs, .resetRelease, .txc] }
theorem witness_NoTransferUntilTheRelease : legal resetSequence.cfg = true
    ∧ (∀ u ∈ [Turn.txc, Turn.txs], u ≠ .resetRelease)
    ∧ resetSequence.turns = .resetAssert :: [Turn.txc, Turn.txs] ++ .resetRelease :: [Turn.txc] := by decide
theorem witness_NoTransferUntilTheRelease_run :
    ∃ t, Host.Core.run Sys2Proof.core 2 resetSequence = .next t :=
  ⟨after (Host.Core.run Sys2Proof.core 2 resetSequence), eq_next_after (by decide)⟩

theorem witness_CleanUpWritesCommute : legal bothErrors.cfg = true := by decide

theorem witness_idle_engine : legal State.reset.cfg = true ∧ State.reset.tx.busy = false
    ∧ TxInv State.reset.cfg State.reset.tx := by decide

theorem witness_TransmitCarrierSeconds : State.reset.cfg.carrierCps * (0#16).toNat = 0
    ∧ State.reset.cfg.carrierCps * (65535#16).toNat ≠ 0 := by decide

theorem witness_TransmitCarrierCycles : Config.default.carrierCps * (6990#16).toNat < 2 ^ 24 ∧ (0xFFFFFF#24) ≠ 0 := by decide

def offered : State := { turn .txc with txcIn := [0x10000041] }
theorem witness_TransmitWordTransfersWhenIdle : legal offered.cfg = true ∧ offered.rst = false
    ∧ offered.turns = .txc :: [] ∧ offered.txcIn = 0x10000041 :: [] ∧ offered.tx.busy = false
    ∧ { offered with tx := txStartFrame 0 }.tx.busy = true := by decide

theorem witness_WordsWaitAtAPortThatIsNotReady : legal bothErrors.cfg = true ∧ (Instr.txb 0).port = .txc
    ∧ bothErrors.tx.busy = true ∧ legal stalled.cfg = true ∧ Instr.rxe.port = .rxi ∧ rxStall stalled = true := by decide

/-- A state whose next turn takes a sample of `x`. -/
def pulling (x : TxEngine) : State := { turn .txs with tx := x }
theorem witness_DeliveryStep_idle : legal (turn .txs).cfg = true ∧ (turn .txs).rst = false ∧ (turn .txs).turns = .txs :: []
    ∧ TxInv (turn .txs).cfg (turn .txs).tx ∧ (turn .txs).tx.busy = false := by decide
theorem witness_DeliveryStep_count : TxInv (pulling (sending 0 0 false 2)).cfg (sending 0 0 false 2)
    ∧ (sending 0 0 false 2).cnt.toNat + 1 < halfZero Config.default := by decide
theorem witness_DeliveryStep_half : TxInv (pulling (sending 0 0 false 3)).cfg (sending 0 0 false 3)
    ∧ halfZero Config.default ≤ (sending 0 0 false 3).cnt.toNat + 1 ∧ (sending 0 0 false 3).ph = false := by decide
theorem witness_DeliveryStep_carrier : TxInv Config.default { txStartCarrier 1 with ph := true, cnt := 1 }
    ∧ TxInv Config.default { txStartCarrier 2 with ph := true, cnt := 1 }
    ∧ halfOne Config.default ≤ ({ txStartCarrier 1 with ph := true, cnt := 1 } : TxEngine).cnt.toNat + 1 := by decide
theorem witness_DeliveryStep_cycle : TxInv Config.default (sending 0 2 true 3)
    ∧ (sending 0 2 true 3).cyc.toNat + 1 < Config.default.zeroRepeat := by decide
theorem witness_DeliveryStep_bit : TxInv Config.default (sending 10 7 true 1) ∧ TxInv Config.default (sending 11 7 true 1)
    ∧ Config.default.oneRepeat ≤ (sending 11 7 true 1).cyc.toNat + 1 ∧ (sending 10 7 true 1).bit ≠ 11 := by decide

theorem witness_DeliveriesAreTheCommandsSequence : (Instr.txb 0x41).port = .txc ∧ legal State.reset.cfg = true
    ∧ TxInv State.reset.cfg State.reset.tx ∧ State.reset.tx.busy = false
    ∧ (∃ t, exec (.txb 0x41) State.reset = .next t ∧ NoTxReset t
      ∧ ∃ u, Host.Core.run Sys2Proof.core 0 t = .next u ∧ u.txcIn = t.txcIn)
    ∧ seq State.reset.cfg (.txc 0) = [] :=
  ⟨rfl, by decide, by decide, rfl,
    ⟨after (exec (.txb 0x41) State.reset), eq_next_after (by decide), by decide, _, rfl, rfl⟩, rfl⟩

/-- A host that sends two cycles of carrier and takes two samples. -/
def short : State := { State.resetWith tiny with txcIn := [0x30000002], turns := [.txc, .txs, .txs] }
theorem witness_TransmitStreamIsTheConcatenation : legal short.cfg = true ∧ TxInv short.cfg short.tx ∧ NoTxReset short
    ∧ ∃ t, Host.Core.run Sys2Proof.core 3 short = .next t :=
  ⟨by decide, by decide, by decide, _, eq_next_after (by decide)⟩

theorem witness_EncodeDeliversTheWaveform :
    let s := { State.reset with txcIn := [0x20000005, 0x10000041, 0x20000000] }
    legal s.cfg = true ∧ TxInv s.cfg s.tx ∧ s.tx.busy = false ∧ s.rst = false
      ∧ s.txcIn = (0x2000#16 ++ 5#16) :: ([0x41#8].map fun b => 0x100000#24 ++ b) ++ (0x2000#16 ++ 0#16) :: [] := by decide

theorem witness_CommandsArePure : (Instr.txb 0x41).port = .txc ∧ stalled.cfg = State.reset.cfg
    ∧ TxInv State.reset.cfg State.reset.tx ∧ TxInv stalled.cfg stalled.tx ∧ stalled.tx.busy = false
    ∧ (∃ t, exec (.txb 0x41) State.reset = .next t) ∧ ∃ t, exec (.txb 0x41) stalled = .next t :=
  ⟨rfl, rfl, by decide, by decide, rfl, ⟨_, rfl⟩, _, rfl⟩

theorem witness_StepKeepsTransmitInvariants : legal offered.cfg = true ∧ TxInv offered.cfg offered.tx
    ∧ ∃ t, step offered = .next t :=
  ⟨by decide, by decide, _, rfl⟩

/-- The transmit fields change, so the first clause's premise is met too. -/
theorem witness_TransmitFieldsHaveFewWriters : offered.turns = .txc :: []
    ∧ ∃ t, step offered = .next t ∧ t.tx ≠ offered.tx :=
  ⟨rfl, _, rfl, by decide⟩

def received : State := { turn .rxi with rxiIn := [0x00C0] }
theorem witness_ReceiveWordTransfersUnlessStalled : legal received.cfg = true ∧ received.rst = false
    ∧ received.turns = .rxi :: [] ∧ received.rxiIn = 0x00C0 :: [] ∧ ¬ rxStall received = true
    ∧ rxStall { received with rx := lastOfBit 0 7, rxOut := [0x41] } = true
    ∧ RxInv Config.default (lastOfBit 0 7) [] := by decide

theorem witness_SampleInFill : RxInv Config.default (RxEngine.reset 32) [] ∧ (RxEngine.reset 32).state = .fill
    ∧ RxInv tiny (RxEngine.reset 1) [] ∧ (RxEngine.reset 1).fill.toNat + 1 = tiny.framesPerBit :=
  ⟨by decide, by decide, by decide, by decide⟩

theorem witness_SampleInSeek : RxInv Config.default tenOnes [] ∧ tenOnes.state = .seek
    ∧ tenOnes.sum.toNat - (tenOnes.win.getD tenOnes.wptr.toNat false).toNat + false.toNat = Config.default.startThreshold
    ∧ Config.default.startThreshold
      < tenOnes.sum.toNat - (tenOnes.win.getD tenOnes.wptr.toNat false).toNat + true.toNat := by decide

theorem witness_SampleInSample : RxInv Config.default (lastOfBit 11 6) [] ∧ (lastOfBit 11 6).state = .sample
    ∧ rxStall { State.reset with rx := lastOfBit 11 6 } = false
    ∧ Config.default.framesPerBit ≤ (lastOfBit 11 6).cnt.toNat + 1 ∧ (lastOfBit 11 6).bitn.toNat < 7
    ∧ RxInv Config.default (lastOfBit 0 7) [] ∧ rxStall { State.reset with rx := lastOfBit 0 7 } = false
    ∧ RxInv Config.default { lastOfBit 0 0 with cnt := 30 } []
    ∧ ({ lastOfBit 0 0 with cnt := 30 } : RxEngine).cnt.toNat + 1 < Config.default.framesPerBit :=
  ⟨by decide, by decide, by decide, by decide, by decide, by decide, by decide, by decide, by decide⟩

theorem witness_SampleInSkip : RxInv Config.default lastSkip [] ∧ lastSkip.state = .skip ∧ lastSkip.skip.toNat ≤ 1
    ∧ RxInv Config.default { lastSkip with skip := 95 } [] ∧ 1 < ({ lastSkip with skip := 95 } : RxEngine).skip.toNat :=
  ⟨by decide, by decide, by decide, by decide, by decide⟩

theorem witness_OnlyBit7OfASampleMatters : legal State.reset.cfg = true ∧ rxStall State.reset = false
    ∧ (0x7F#8).getLsbD 7 = (0x00#8).getLsbD 7 ∧ legal tiny = true ∧ tiny.framesPerBit = 1 := by decide

theorem witness_EndOfStream : legal Config.default = true ∧ rxStall { State.reset with rx := lastOfBit 5 5 } = false := by
  decide

theorem witness_ByteDelivery : let s := { turn .rxo with rxOut := [0x41] }
    legal s.cfg = true ∧ s.rst = false ∧ s.turns = .rxo :: [] ∧ s.rxOut = 0x41 :: [] ∧ (turn .rxo).rxOut = [] := by decide

theorem witness_StepKeepsReceiveInvariants : RxInv received.cfg received.rx received.rxOut
    ∧ ∃ t, step received = .next t :=
  ⟨by decide, _, rfl⟩

theorem witness_ReceiveFieldsHaveFewWriters : received.turns = .rxi :: []
    ∧ (∃ t, step received = .next t ∧ t.rx ≠ received.rx) ∧ offered.turns = .txc :: [] ∧ ∃ t, step offered = .next t :=
  ⟨rfl, ⟨after (step received), eq_next_after (by decide), by decide⟩, rfl, _, eq_next_after (by decide)⟩

theorem witness_ParityAndStopBitsAreNotExamined : let r := { lastSkip with skip := 95 }
    WindowInv Config.default r ∧ SamplerInv Config.default r ∧ r.state = .skip
      ∧ (List.replicate 94 (0x00#8)).length = (List.replicate 94 (0xFF#8)).length
      ∧ (List.replicate 94 (0x00#8)).length < r.skip.toNat := by decide

/-- A stream of two samples and RXE into the smallest block. -/
def streamed : State :=
  { State.resetWith tiny with rxiIn := [0x0080, 0x0000, 0x0100], turns := [.rxi, .rxi, .rxi] }
theorem witness_ReceivedBytesAreDec : legal streamed.cfg = true ∧ streamed.rx = RxEngine.reset streamed.cfg.framesPerBit
    ∧ streamed.rxOut.length ≤ streamed.cfg.outDepth ∧ NoRxReset streamed
    ∧ streamed.rxiIn = [0x80#8, 0x00#8].map rxsWord ++ [0x0100#16]
    ∧ [0x80#8, 0x00#8].length < 9 * streamed.cfg.framesPerBit + 1
    ∧ ∃ t, Host.Core.run Sys2Proof.core 3 streamed = .next t ∧ t.rxiIn = [] :=
  ⟨by decide, by decide, by decide, by decide, by decide, by decide,
    after (Host.Core.run Sys2Proof.core 3 streamed), eq_next_after (by decide), by decide⟩

theorem witness_ShortWaveformsDecodeToNothing : (List.replicate 9 true).length < 9 * tiny.framesPerBit + 1 := by decide

theorem witness_NoFalseStartInACarrier : 0 + 32 ≤ 4 * 8 ∧ 1 + 32 ≤ 4 * 9 := by decide

/-- The empty byte stream with no leader and no trailer: RXE alone. -/
def emptyStream : State := { State.reset with rxiIn := [0x0100], turns := [.rxi] }
theorem witness_RoundTripAtTheDefaults : emptyStream.cfg = Config.default ∧ emptyStream.rx = RxEngine.reset 32
    ∧ emptyStream.rxOut = [] ∧ NoRxReset emptyStream
    ∧ emptyStream.rxiIn = (carrier Config.default 0 ++ [].flatMap (frameSamples Config.default)
        ++ carrier Config.default 0).map rxsWord ++ [0x0100#16]
    ∧ ∃ t, Host.Core.run Sys2Proof.core 1 emptyStream = .next t ∧ t.rxiIn = [] :=
  ⟨rfl, rfl, rfl, by decide, rfl, after (Host.Core.run Sys2Proof.core 1 emptyStream), eq_next_after (by decide), by decide⟩

/-- The byte 0x41 with a leader of two cycles and a trailer of one (95_test_vectors.md, programs P1 and P2), then RXE. -/
def oneByte : State := { State.reset with
  rxiIn := (carrier Config.default 2 ++ [0x41#8].flatMap (frameSamples Config.default) ++ carrier Config.default 1).map rxsWord
    ++ [0x0100#16]
  turns := List.replicate 397 .rxi }
theorem oneByte_runs : isNext (Host.Core.run Sys2Proof.core 397 oneByte) = true
    ∧ (after (Host.Core.run Sys2Proof.core 397 oneByte)).rxiIn = [] := by decide +kernel
theorem witness_RoundTripAtTheDefaults_byte : oneByte.cfg = Config.default ∧ oneByte.rx = RxEngine.reset 32
    ∧ oneByte.rxOut = [] ∧ NoRxReset oneByte
    ∧ oneByte.rxiIn = (carrier Config.default 2 ++ [0x41#8].flatMap (frameSamples Config.default)
        ++ carrier Config.default 1).map rxsWord ++ [0x0100#16]
    ∧ ∃ t, Host.Core.run Sys2Proof.core 397 oneByte = .next t ∧ t.rxiIn = [] :=
  ⟨rfl, rfl, rfl, ⟨fun u hu => by rw [List.eq_of_mem_replicate hu]; decide, rfl⟩, rfl,
    after (Host.Core.run Sys2Proof.core 397 oneByte), eq_next_after oneByte_runs.1, oneByte_runs.2⟩

theorem witness_ControlRegisterRead : let s := { State.reset with tx := txStartFrame 0, rx := tenOnes }
    legal s.cfg = true ∧ s.tx.busy = true ∧ s.rx.state = .seek ∧ s.rxOut = [] ∧ s.errTxc = false ∧ s.errRxi = false
      ∧ (0x100000000#36).getLsbD 35 = false := by decide

theorem witness_ControlRegisterWrite : (0x800000003#36).getLsbD 35 = true ∧ 2 ≤ (2#3).toNat ∧ 2 ≤ (7#3).toNat
    ∧ legal State.reset.cfg = true := by decide

theorem witness_ControlAccessAlwaysRuns : let s := { turn .csr with csrIn := [0x800000003], tx := txStartFrame 0 }
    legal s.cfg = true ∧ s.rst = false ∧ s.turns = .csr :: [] ∧ s.csrIn = 0x800000003 :: [] := by decide

theorem witness_TransmitReset : legal bothErrors.cfg = true ∧ TxInv State.reset.cfg State.reset.tx
    ∧ State.reset.tx.busy = false := by decide

theorem witness_ReceiveReset : legal stalled.cfg = true ∧ rxStall State.reset = false := by decide

def reservedTxc : State := { turn .txc with txcIn := [0x40000000] }
def reservedRxi : State := { turn .rxi with rxiIn := [0x0200] }
theorem witness_ErrorBitsChangeInThreeWays : reservedTxc.turns = .txc :: [] ∧ reservedRxi.turns = .rxi :: []
    ∧ (∃ t, step reservedTxc = .next t ∧ t.errTxc ≠ reservedTxc.errTxc)
    ∧ ∃ t, step reservedRxi = .next t ∧ t.errRxi ≠ reservedRxi.errRxi :=
  ⟨rfl, rfl, ⟨_, rfl, by decide⟩, _, rfl, by decide⟩

theorem witness_ErrorsArePrecise : legal reservedTxc.cfg = true ∧ reservedTxc.rst = false
    ∧ reservedTxc.turns = .txc :: [] ∧ reservedTxc.txcIn = 0x40000000 :: [] ∧ reservedTxc.tx.busy = false
    ∧ txcReserved 0x40000000 = true ∧ reservedRxi.rxiIn = 0x0200 :: [] ∧ rxStall reservedRxi = false
    ∧ rxiReserved 0x0200 = true := by decide

theorem witness_IdleTurnsHoldTheState : legal (turn .csr).cfg = true ∧ State.reset.turns = []
    ∧ (turn .csr).turns = .csr :: [] ∧ (turn .csr).csrIn = [] ∧ (turn .rxo).rxOut = [] := by decide

theorem witness_EveryWaitIsLifted : legal bothErrors.cfg = true ∧ TxInv bothErrors.cfg bothErrors.tx
    ∧ rxStall stalled = true ∧ State.reset.rst = false ∧ State.reset.tx.busy = false ∧ rxStall State.reset = false := by
  decide

end Sys2Proof.Machine.Tests
end

section
/-!
PROOFS. The parameters (00_scope.md): rule R8's legality read clause by clause, the refusal of every other configuration,
and rule R7's derived quantities.
-/

namespace Sys2Proof.Machine

variable {c : Config} {s : State}

/-! ## Rule R8, clause by clause -/

theorem legalTones_iff : legalTones c = true ↔
    0 < c.sampleRate ∧ 0 < c.oneFreq ∧ 0 < c.zeroFreq ∧ 1 ≤ halfOne c ∧ 1 ≤ halfZero c := by
  simp only [legalTones, Bool.and_eq_true, decide_eq_true_eq, and_assoc]

theorem legalLevels_iff : legalLevels c = true ↔
    c.amplitude % 2 = 0 ∧ c.amplitude / 2 ≤ c.center ∧ highLevel c ≤ 255 := by
  simp only [legalLevels, Bool.and_eq_true, decide_eq_true_eq, and_assoc]

/-- Rule R8(b) with LOW and HIGH as integers: the model's bound on AMP div 2 is 0 ≤ LOW, and LOW ≤ HIGH always holds. -/
theorem legalLevels_iff_int : legalLevels c = true ↔
    c.amplitude % 2 = 0 ∧ (0 : Int) ≤ (c.center : Int) - (c.amplitude : Int) / 2
      ∧ (c.center : Int) - (c.amplitude : Int) / 2 ≤ (c.center : Int) + (c.amplitude : Int) / 2
      ∧ (c.center : Int) + (c.amplitude : Int) / 2 ≤ 255 := by
  rw [legalLevels_iff, highLevel]
  omega

theorem legalCounts_iff : legalCounts c = true ↔
    1 ≤ c.oneRepeat ∧ c.oneRepeat ≤ 255 ∧ 1 ≤ c.zeroRepeat ∧ c.zeroRepeat ≤ 255
      ∧ 1 ≤ c.framesPerBit ∧ c.framesPerBit ≤ 65535 ∧ c.startThreshold ≤ c.framesPerBit
      ∧ c.oneThreshold ≤ c.framesPerBit ∧ 1 ≤ c.outDepth := by
  simp only [legalCounts, Bool.and_eq_true, decide_eq_true_eq, and_assoc]

theorem legalWidths_iff : legalWidths c = true ↔
    c.carrierCps * 65535 ≤ 2 ^ 32 - 1 ∧ c.sampleRate ≤ 2 ^ 32 - 1 := by
  simp only [legalWidths, Bool.and_eq_true, decide_eq_true_eq]

theorem legal_iff : legal c = true ↔
    legalTones c = true ∧ legalLevels c = true ∧ legalCounts c = true ∧ legalWidths c = true := by
  simp only [legal, Bool.and_eq_true, and_assoc]

/-! ## The refusal -/

theorem exec_of_illegal (hl : legal s.cfg = false) (i : Instr) : exec i s = .refused .illegalConfig := by
  cases i with
  | txb | txc | txcc | illegalTxc =>
    simp only [exec, execTxb, execTxc, execTxcc, execIllegalTxc, onTxc_of_illegal hl]
  | rxs | rxe | illegalRxi =>
    simp only [exec, execRxs, execRxe, execIllegalRxi, onRxi_of_illegal hl]
  | csrr | csrw =>
    simp only [exec, execCsrr, execCsrw, onCsr_of_illegal hl]

/-! ## The two levels of a legal block -/

theorem legal_levels (h : legal c = true) :
    c.amplitude / 2 ≤ c.center ∧ c.center + c.amplitude / 2 ≤ 255 := by
  obtain ⟨-, hlev, -, -⟩ := legal_iff.mp h
  exact (legalLevels_iff.mp hlev).2

theorem toNat_low (h : legal c = true) : (low c).toNat = c.center - c.amplitude / 2 := by
  have := legal_levels h
  rw [low, lowLevel, BitVec.toNat_ofNat, Nat.mod_eq_of_lt (by omega)]

theorem toNat_high (h : legal c = true) : (high c).toNat = c.center + c.amplitude / 2 := by
  have := legal_levels h
  rw [high, highLevel, BitVec.toNat_ofNat, Nat.mod_eq_of_lt (by omega)]

theorem low_toNat_le_high_toNat (h : legal c = true) : (low c).toNat ≤ (high c).toNat := by
  rw [toNat_low h, toNat_high h]
  omega

theorem byte_bit7_iff (v : Byte) : v.getLsbD 7 = true ↔ 128 ≤ v.toNat := by
  rw [← BitVec.msb_eq_getLsbD_last, BitVec.msb_eq_decide, decide_eq_true_eq]

/-- LOW is at most HIGH, so their bits 7 differ in one way only. -/
theorem low_bit7_eq_high_bit7 (h : legal c = true)
    (hflat : ¬ ((low c).getLsbD 7 = false ∧ (high c).getLsbD 7 = true)) :
    (low c).getLsbD 7 = (high c).getLsbD 7 := by
  have hle := low_toNat_le_high_toNat h
  cases hlow : (low c).getLsbD 7 with
  | false => exact (Bool.eq_false_iff.mpr fun hhigh => hflat ⟨hlow, hhigh⟩).symm
  | true => exact ((byte_bit7_iff _).mpr (((byte_bit7_iff _).mp hlow).trans hle)).symm

/-! ## Sign changes inside a cycle -/

theorem mem_rep_singleton {α : Type} {n : Nat} {a b : α} (h : a ∈ rep n [b]) : a = b := by
  obtain ⟨l, hl, ha⟩ := List.mem_flatten.mp h
  rw [List.eq_of_mem_replicate hl] at ha
  exact List.mem_singleton.mp ha

theorem eq_low_or_high_of_mem_cycle {h : Nat} {v : Byte} (hv : v ∈ cycle c h) : v = low c ∨ v = high c :=
  (List.mem_append.mp hv).imp mem_rep_singleton mem_rep_singleton

/-- Samples of one polarity, after a sample of that polarity, change no sign (rule R141). -/
theorem edges_of_same_polarity {p : Bool} {vs : List Byte} (hvs : ∀ v ∈ vs, v.getLsbD 7 = p) :
    ∀ e ∈ edges p vs, e = false := by
  induction vs with
  | nil => simp [edges]
  | cons v vs ih =>
    obtain ⟨hv, hrest⟩ := List.forall_mem_cons.mp hvs
    rw [edges, hv, Bool.xor_self]
    exact List.forall_mem_cons.mpr ⟨rfl, ih hrest⟩

/-- Whatever stands before the stream decides its first sign-change bit alone. -/
theorem edges_drop_one_of_same_polarity {p : Bool} {vs : List Byte} (prev : Bool)
    (hvs : ∀ v ∈ vs, v.getLsbD 7 = p) : ∀ e ∈ (edges prev vs).drop 1, e = false := by
  cases vs with
  | nil => simp [edges]
  | cons v vs =>
    obtain ⟨hv, hrest⟩ := List.forall_mem_cons.mp hvs
    rw [edges, hv, List.drop_one, List.tail_cons]
    exact edges_of_same_polarity hrest

theorem edges_cycle_drop_one (hlevels : (low c).getLsbD 7 = (high c).getLsbD 7) (h : Nat) (prev : Bool) :
    ∀ e ∈ (edges prev (cycle c h)).drop 1, e = false := by
  refine edges_drop_one_of_same_polarity (p := (high c).getLsbD 7) prev fun v hv => ?_
  rcases eq_low_or_high_of_mem_cycle hv with rfl | rfl
  · exact hlevels
  · rfl

/-- Settles O6: legality clause by clause, the refusal from the gate of each port, and the flat cycle from LOW ≤ HIGH. -/
theorem illegalConfigurationsAreRefused : Obligations.IllegalConfigurationsAreRefused := by
  refine ⟨fun c => ?_, fun s hl => ⟨step_of_illegal hl, exec_of_illegal hl⟩,
    fun c hl hflat => edges_cycle_drop_one (low_bit7_eq_high_bit7 hl hflat)⟩
  rw [legal_iff, legalTones_iff, legalLevels_iff_int, legalCounts_iff, legalWidths_iff]

/-! ## Rule R7 -/

/-- A half-length as the model writes it and as rule R7 does, for either tone. -/
theorem div_two_mul_eq_div_div_two (rate freq : Nat) : rate / (2 * freq) = rate / freq / 2 := by
  rw [Nat.div_div_eq_div_mul, Nat.mul_comm]

/-- Settles O8: the two floors of a half-length are one, the levels fit 8 bits, and the defaults are computed. -/
theorem derivedQuantities : Obligations.DerivedQuantities := by
  refine ⟨fun c => ⟨div_two_mul_eq_div_div_two _ _, div_two_mul_eq_div_div_two _ _, rfl, rfl, rfl, rfl,
    fun h => ⟨?_, toNat_high h, skipLen_eq h⟩⟩, by decide⟩
  have := legal_levels h
  rw [toNat_low h]
  omega

end Sys2Proof.Machine
end

section
/-!
PROOFS. What a step can do, said once: the whole next state of a transaction of each port, the transaction a turn accepts,
and the edits of the state that no acceptance sees (00_scope.md rule R13, 20_memory.md rules R61 to R66).
-/

namespace Sys2Proof.Machine

variable {s t : State} {p : InPort} {i : Instr} {us : List Turn}

/-! ## The gate and the effect of each transaction -/

theorem exec_txb (b : BitVec 8) (s : State) : exec (.txb b) s = onTxc (fun s => s.setTx (txStartFrame b)) s := rfl

theorem exec_txc (n : BitVec 16) (s : State) :
    exec (.txc n) s = onTxc (fun s => startCarrier (secondsCount s.cfg n) s) s := rfl

theorem exec_txcc (n : BitVec 24) (s : State) : exec (.txcc n) s = onTxc (startCarrier (cyclesCount n)) s := rfl

theorem exec_illegalTxc (w : TxcWord) (s : State) : exec (.illegalTxc w) s = onTxc (flag .errTxc) s := rfl

theorem exec_rxs (v : BitVec 8) (s : State) :
    exec (.rxs v) s = onRxi (fun s => emitRxo (rxTake s.cfg v s.rx).2 (s.setRx (rxTake s.cfg v s.rx).1)) s := rfl

theorem exec_rxe (s : State) : exec .rxe s = onRxi (rxEngineReset true) s := rfl

theorem exec_illegalRxi (w : RxiWord) (s : State) : exec (.illegalRxi w) s = onRxi (flag .errRxi) s := rfl

theorem exec_csrr (x : BitVec 3) (d : CsrWord) (s : State) :
    exec (.csrr x d) s = onCsr (fun s => s.setCsrOut (s.csrOut ++ [csrRead x s])) s := rfl

theorem exec_csrw (x : BitVec 3) (d : CsrWord) (s : State) : exec (.csrw x d) s = onCsr (csrWrite x d) s := rfl

/-! ## The next state of a transaction, port by port -/

/-- A carrier command changes nothing or starts a carrier of a positive count (rules R111, R112, decision D33). -/
theorem startCarrier_cases (n : BitVec 32) (s : State) :
    startCarrier n s = s ∨ (n ≠ 0 ∧ startCarrier n s = s.setTx (txStartCarrier n)) := by
  by_cases hn : n = 0
  · exact .inl (hn ▸ startCarrier_zero)
  · exact .inr ⟨hn, startCarrier_pos hn⟩

/-- Everything a transmit transaction can do to the state (rules R107, R110 to R113). -/
theorem exec_txc_next_cases (hp : i.port = .txc) (h : exec i s = .next t) :
    t = s
      ∨ (∃ b, i = .txb b ∧ t = s.setTx (txStartFrame b))
      ∨ (((∃ n, i = .txc n) ∨ ∃ n, i = .txcc n) ∧ ∃ n, n ≠ 0 ∧ t = s.setTx (txStartCarrier n))
      ∨ (∃ w, i = .illegalTxc w ∧ t = s.setErrTxc true) := by
  cases i with
  | txb b =>
    rw [exec_txb] at h
    obtain ⟨-, ⟨-, rfl⟩ | ⟨-, rfl⟩⟩ := onTxc_next_cases h
    · exact .inr (.inl ⟨b, rfl, rfl⟩)
    · exact .inl rfl
  | txc k =>
    rw [exec_txc] at h
    obtain ⟨-, ⟨-, rfl⟩ | ⟨-, rfl⟩⟩ := onTxc_next_cases h
    · exact (startCarrier_cases _ _).imp_right fun hc => .inr (.inl ⟨.inl ⟨k, rfl⟩, _, hc⟩)
    · exact .inl rfl
  | txcc k =>
    rw [exec_txcc] at h
    obtain ⟨-, ⟨-, rfl⟩ | ⟨-, rfl⟩⟩ := onTxc_next_cases h
    · exact (startCarrier_cases _ _).imp_right fun hc => .inr (.inl ⟨.inr ⟨k, rfl⟩, _, hc⟩)
    · exact .inl rfl
  | illegalTxc w =>
    rw [exec_illegalTxc] at h
    obtain ⟨-, ⟨-, rfl⟩ | ⟨-, rfl⟩⟩ := onTxc_next_cases h
    · exact .inr (.inr (.inr ⟨w, rfl, rfl⟩))
    · exact .inl rfl
  | rxs | rxe | illegalRxi | csrr | csrw => cases hp

/-- Everything a receive transaction can do to the state (rules R140, R150 to R152). -/
theorem exec_rxi_next_cases (hp : i.port = .rxi) (h : exec i s = .next t) :
    t = s
      ∨ (∃ v, i = .rxs v ∧ rxStall s = false
          ∧ t = emitRxo (rxTake s.cfg v s.rx).2 (s.setRx (rxTake s.cfg v s.rx).1))
      ∨ (i = .rxe ∧ t = s.setRx (RxEngine.reset s.cfg.framesPerBit))
      ∨ (∃ w, i = .illegalRxi w ∧ t = s.setErrRxi true) := by
  cases i with
  | rxs v =>
    rw [exec_rxs] at h
    obtain ⟨-, ⟨hr, rfl⟩ | ⟨-, rfl⟩⟩ := onRxi_next_cases h
    · exact .inr (.inl ⟨v, rfl, hr, rfl⟩)
    · exact .inl rfl
  | rxe =>
    rw [exec_rxe] at h
    obtain ⟨-, ⟨-, rfl⟩ | ⟨-, rfl⟩⟩ := onRxi_next_cases h
    · exact .inr (.inr (.inl ⟨rfl, rfl⟩))
    · exact .inl rfl
  | illegalRxi w =>
    rw [exec_illegalRxi] at h
    obtain ⟨-, ⟨-, rfl⟩ | ⟨-, rfl⟩⟩ := onRxi_next_cases h
    · exact .inr (.inr (.inr ⟨w, rfl, rfl⟩))
    · exact .inl rfl
  | txb | txc | txcc | illegalTxc | csrr | csrw => cases hp

theorem csrWrite_ctrl (d : CsrWord) (s : State) : csrWrite 0 d s = writeCtrl d s := rfl

theorem csrWrite_status (d : CsrWord) (s : State) : csrWrite 1 d s = writeStatus d s := rfl

theorem csrWrite_reserved {x : BitVec 3} (h0 : x ≠ 0) (h1 : x ≠ 1) (d : CsrWord) (s : State) :
    csrWrite x d s = s := by
  rw [csrWrite, if_neg h0, if_neg h1]

/-- Everything a control-register access can do to the state (rules R180, R181). -/
theorem exec_csr_next_cases (hp : i.port = .csr) (h : exec i s = .next t) :
    t = s
      ∨ (∃ x d, i = .csrr x d ∧ t = s.setCsrOut (s.csrOut ++ [csrRead x s]))
      ∨ (∃ d, i = .csrw 0 d ∧ t = writeCtrl d s)
      ∨ (∃ d, i = .csrw 1 d ∧ t = writeStatus d s) := by
  cases i with
  | csrr x d =>
    rw [exec_csrr] at h
    obtain ⟨-, rfl⟩ := onCsr_next_cases h
    exact .inr (.inl ⟨x, d, rfl, rfl⟩)
  | csrw x d =>
    rw [exec_csrw] at h
    obtain ⟨-, rfl⟩ := onCsr_next_cases h
    by_cases h0 : x = 0
    · subst h0
      exact .inr (.inr (.inl ⟨d, rfl, rfl⟩))
    · by_cases h1 : x = 1
      · subst h1
        exact .inr (.inr (.inr ⟨d, rfl, rfl⟩))
      · exact .inl (csrWrite_reserved h0 h1 d s)
  | txb | txc | txcc | illegalTxc | rxs | rxe | illegalRxi => cases hp

/-- No transaction writes the parameters (rule R6). -/
theorem exec_next_cfg (h : exec i s = .next t) : t.cfg = s.cfg := by
  cases hp : i.port with
  | txc =>
    obtain rfl | ⟨_, -, rfl⟩ | ⟨-, _, -, rfl⟩ | ⟨_, -, rfl⟩ := exec_txc_next_cases hp h <;> rfl
  | rxi =>
    obtain rfl | ⟨_, -, -, rfl⟩ | ⟨-, rfl⟩ | ⟨_, -, rfl⟩ := exec_rxi_next_cases hp h <;> rfl
  | csr =>
    obtain rfl | ⟨_, _, -, rfl⟩ | ⟨d, -, rfl⟩ | ⟨d, -, rfl⟩ := exec_csr_next_cases hp h
    · rfl
    · rfl
    · rw [writeCtrl_eq]
    · rw [writeStatus_eq]

/-! ## The transaction a turn accepts -/

theorem port_decodeTxc (w : TxcWord) : (decodeTxc w).port = .txc := by
  unfold decodeTxc
  split_ifs <;> rfl

theorem port_decodeRxi (w : RxiWord) : (decodeRxi w).port = .rxi := by
  unfold decodeRxi
  split_ifs <;> rfl

theorem port_decodeCsr (q : CsrReq) : (decodeCsr q).port = .csr := by
  unfold decodeCsr
  split_ifs <;> rfl

/-- A port accepts its own transactions only (rules R91, R93). -/
theorem port_of_accept (h : accept p s = some (i, t)) : i.port = p := by
  obtain ⟨rfl, -, w, ws, -, rfl, -⟩ | ⟨rfl, -, w, ws, -, rfl, -⟩ | ⟨rfl, q, qs, -, rfl, -⟩ := accept_cases h
  · exact port_decodeTxc w
  · exact port_decodeRxi w
  · exact port_decodeCsr q

theorem accepted_of_accept (hr : s.rst = false) (h : accept p s = some (i, t)) : accepted p s = some i := by
  simp [accepted, hr, h]

/-- Two states that agree in the parameters, both engines and rx_out: what the host offers, has been given and will do
next may differ. -/
structure SameEngines (s s' : State) : Prop where
  cfg : s'.cfg = s.cfg
  tx : s'.tx = s.tx
  rx : s'.rx = s.rx
  rxOut : s'.rxOut = s.rxOut

/-- Consuming a word writes neither engine. -/
theorem sameEngines_of_accept (h : accept p s = some (i, t)) : SameEngines s t := by
  obtain ⟨-, -, _, _, -, -, rfl⟩ | ⟨-, -, _, _, -, -, rfl⟩ | ⟨-, _, _, -, -, rfl⟩ := accept_cases h <;>
    exact ⟨rfl, rfl, rfl, rfl⟩

theorem SameEngines.rxStall {s' : State} (h : SameEngines s s') : rxStall s' = rxStall s := by
  simp only [Machine.rxStall, h.cfg, h.rx, h.rxOut]

/-! ## STATUS, bit by bit -/

/-- Every bit of STATUS (rule R41); RX_STATE's two bits stand at 2 and 3, and bits 4 to 7 and 10 to 31 are 0. -/
theorem getLsbD_statusWord (s : State) (k : Nat) : (statusWord s).getLsbD k =
    ((decide (k = 0) && s.tx.busy) || (decide (k = 1) && rxoValid s)
      || (decide (2 ≤ k) && (rxStateCode s.rx.state).getLsbD (k - 2))
      || (decide (k = 8) && s.errTxc) || (decide (k = 9) && s.errRxi)) := by
  simp only [statusWord, BitVec.getLsbD_setWidth, BitVec.getLsbD_append, BitVec.getLsbD_ofBool, BitVec.getLsbD_ofNat]
  match k with
  | 0 | 1 | 2 | 3 | 4 | 5 | 6 | 7 | 8 | 9 => simp [-BitVec.getLsbD_eq_getElem]
  | n + 10 => simp [-BitVec.getLsbD_eq_getElem, show ¬ n + 10 < 1 by omega]

theorem statusWord_busy (s : State) : (statusWord s).getLsbD 0 = s.tx.busy := by
  simp [getLsbD_statusWord, -BitVec.getLsbD_eq_getElem]

theorem statusWord_rxoValid (s : State) : (statusWord s).getLsbD 1 = rxoValid s := by
  simp [getLsbD_statusWord, -BitVec.getLsbD_eq_getElem]

theorem statusWord_rxState (s : State) : (statusWord s).extractLsb' 2 2 = rxStateCode s.rx.state := by
  refine BitVec.eq_of_getLsbD_eq fun k hk => ?_
  rw [BitVec.getLsbD_extractLsb', getLsbD_statusWord]
  simp [-BitVec.getLsbD_eq_getElem, hk, show 2 + k ≠ 1 by omega, show 2 + k ≠ 8 by omega,
    show 2 + k ≠ 9 by omega]

/-! ## Edits that an acceptance does not see -/

/-- An edit of the state that leaves the reset input and the words on offer alone. -/
structure KeepsOffers (g : State → State) : Prop where
  rst : ∀ s, (g s).rst = s.rst
  txcIn : ∀ s, (g s).txcIn = s.txcIn
  rxiIn : ∀ s, (g s).rxiIn = s.rxiIn
  csrIn : ∀ s, (g s).csrIn = s.csrIn
  setTxcIn : ∀ s ws, (g s).setTxcIn ws = g (s.setTxcIn ws)
  setRxiIn : ∀ s ws, (g s).setRxiIn ws = g (s.setRxiIn ws)
  setCsrIn : ∀ s qs, (g s).setCsrIn qs = g (s.setCsrIn qs)

theorem keepsOffers_setTurns (us : List Turn) : KeepsOffers (·.setTurns us) :=
  ⟨fun _ => rfl, fun _ => rfl, fun _ => rfl, fun _ => rfl, fun _ _ => rfl, fun _ _ => rfl, fun _ _ => rfl⟩

theorem keepsOffers_setTx (x : TxEngine) : KeepsOffers (·.setTx x) :=
  ⟨fun _ => rfl, fun _ => rfl, fun _ => rfl, fun _ => rfl, fun _ _ => rfl, fun _ _ => rfl, fun _ _ => rfl⟩

theorem keepsOffers_setRx_setRxOut (r : RxEngine) (o : List Byte) : KeepsOffers fun s => (s.setRx r).setRxOut o :=
  ⟨fun _ => rfl, fun _ => rfl, fun _ => rfl, fun _ => rfl, fun _ _ => rfl, fun _ _ => rfl, fun _ _ => rfl⟩

section

variable {g : State → State} (hg : KeepsOffers g)

include hg

theorem takeWord_edit : takeWord p (g s) = (takeWord p s).map (Prod.map id g) := by
  cases p with
  | txc => cases hw : s.txcIn <;> simp [takeWord, hg.txcIn, hw, hg.setTxcIn]
  | rxi => cases hw : s.rxiIn <;> simp [takeWord, hg.rxiIn, hw, hg.setRxiIn]
  | csr => cases hw : s.csrIn <;> simp [takeWord, hg.csrIn, hw, hg.setCsrIn]

/-- An edit that leaves a port's readiness alone changes nothing of what the port accepts. -/
theorem accept_edit (hready : portReady p (g s) = portReady p s) :
    accept p (g s) = (accept p s).map (Prod.map id g) := by
  rw [accept, accept, hready, takeWord_edit hg]
  cases portReady p s <;> cases takeWord p s <;> rfl

/-- A turn of a transaction port under such an edit: it waits as before, or it runs the same transaction. -/
theorem transact_edit (hready : portReady p (g s) = portReady p s) (h : transact p s = .next t) :
    (t = s ∧ transact p (g s) = .next (g s))
      ∨ ∃ i s', accept p s = some (i, s') ∧ exec i s' = .next t ∧ transact p (g s) = exec i (g s') := by
  have hacc := accept_edit hg hready
  cases hr : s.rst with
  | true =>
    rw [transact_of_rst hr] at h
    exact .inl ⟨(Host.Outcome.next.inj h).symm, transact_of_rst ((hg.rst s).trans hr)⟩
  | false =>
    cases ha : accept p s with
    | none =>
      rw [transact_of_wait ha] at h
      rw [ha] at hacc
      exact .inl ⟨(Host.Outcome.next.inj h).symm, transact_of_wait hacc⟩
    | some a =>
      rw [transact_of_accept hr ha] at h
      rw [ha] at hacc
      exact .inr ⟨a.1, a.2, rfl, h, transact_of_accept ((hg.rst s).trans hr) hacc⟩

end

/-! ## The turn of a step -/

theorem portReady_setTurns : portReady p (s.setTurns us) = portReady p s := by
  cases p <;> rfl

/-- A step that answers a next state ran its turn, in a legal block. -/
theorem runTurn_of_step {u : Turn} (hu : s.turns = u :: us) (h : step s = .next t) :
    legal s.cfg = true ∧ runTurn u (s.setTurns us) = .next t := by
  obtain ⟨hl, ⟨hnil, -⟩ | ⟨u', us', hu', hrun⟩⟩ := step_next_cases h
  · rw [hnil] at hu
    cases hu
  · rw [hu] at hu'
    cases hu'
    exact ⟨hl, hrun⟩

/-- Everything the turn of a transaction port can do within a step: it changes only the list of turns, or the accepted
transaction runs in a state that differs from the step's on the host's side alone. -/
theorem transact_setTurns_cases (h : transact p (s.setTurns us) = .next t) :
    t = s.setTurns us
      ∨ ∃ i s', accepted p s = some i ∧ i.port = p ∧ SameEngines s s' ∧ exec i s' = .next t := by
  obtain rfl | ⟨hr, i, s', ha, hx⟩ := transact_next_cases h
  · exact .inl rfl
  · have hs := sameEngines_of_accept ha
    have hp := port_of_accept ha
    rw [accept_edit (keepsOffers_setTurns us) portReady_setTurns] at ha
    obtain ⟨⟨j, s''⟩, ha', heq⟩ := Option.map_eq_some_iff.mp ha
    cases heq
    exact .inr ⟨_, _, accepted_of_accept hr ha', hp, ⟨hs.cfg, hs.tx, hs.rx, hs.rxOut⟩, hx⟩

theorem transact_setTurns_cfg (h : transact p (s.setTurns us) = .next t) : t.cfg = s.cfg := by
  obtain rfl | ⟨i, s', -, -, hs, hx⟩ := transact_setTurns_cases h
  · rfl
  · exact (exec_next_cfg hx).trans hs.cfg

/-- No step writes the parameters (rule R6). -/
theorem step_next_cfg (h : step s = .next t) : t.cfg = s.cfg := by
  obtain ⟨-, ⟨-, rfl⟩ | ⟨u, us, hu, hrun⟩⟩ := step_next_cases h
  · rfl
  cases u with
  | txc | rxi | csr => exact transact_setTurns_cfg hrun
  | txs =>
    cases hrun
    cases hr : s.rst <;> cases hb : s.tx.busy <;> simp [txsDeliver, txsValid, hr, hb]
  | rxo =>
    cases hrun
    cases hr : s.rst <;> cases ho : s.rxOut <;> simp [rxoDeliver, hr, ho]
  | resetAssert =>
    cases hrun
    rfl
  | resetRelease =>
    cases hrun
    cases hr : s.rst <;> simp [hr, hardwareReset_eq]

end Sys2Proof.Machine
end

section
/-!
PROOFS. The transmit fields (10_state.md rules R23 to R25): what can write them, their invariants, and that only the
engine itself reads more of them than tx_busy.
-/

namespace Sys2Proof.Machine

variable {c : Config} {s s' t : State} {x : TxEngine} {u : Turn} {us : List Turn} {p : InPort} {i : Instr}

/-! ## What a step writes into the transmit fields -/

/-- The transmit fields a turn can leave behind it, with what writes them (rule R24). -/
inductive TxWrite (s : State) : Turn → TxEngine → Prop where
  | keep (u : Turn) : TxWrite s u s.tx
  | frame (b : Byte) (ha : accepted .txc s = some (.txb b)) : TxWrite s .txc (txStartFrame b)
  | carrier (i : Instr) (n : BitVec 32) (ha : accepted .txc s = some i)
      (hi : (∃ k, i = .txc k) ∨ ∃ k, i = .txcc k) (hn : n ≠ 0) : TxWrite s .txc (txStartCarrier n)
  | deliver (hr : s.rst = false) (hb : s.tx.busy = true) : TxWrite s .txs (txAdvance s.cfg s.tx)
  | hardwareReset (hr : s.rst = true) : TxWrite s .resetRelease TxEngine.reset
  | ctrlReset (i : Instr) (ha : accepted .csr s = some i) (hi : isTxRst i = true) : TxWrite s .csr TxEngine.reset

theorem txWrite_of_eq (h : x = s.tx) : TxWrite s u x := h ▸ .keep u

theorem txWrite_of_exec_txc (ha : accepted .txc s = some i) (hp : i.port = .txc) (hs : s'.tx = s.tx)
    (h : exec i s' = .next t) : TxWrite s .txc t.tx := by
  obtain rfl | ⟨b, rfl, rfl⟩ | ⟨hi, n, hn, rfl⟩ | ⟨_, -, rfl⟩ := exec_txc_next_cases hp h
  · exact txWrite_of_eq hs
  · exact .frame b ha
  · exact .carrier i n ha hi hn
  · exact txWrite_of_eq hs

/-- No receive transaction writes a transmit field. -/
theorem exec_rxi_tx (hp : i.port = .rxi) (h : exec i s = .next t) : t.tx = s.tx := by
  obtain rfl | ⟨_, -, -, rfl⟩ | ⟨-, rfl⟩ | ⟨_, -, rfl⟩ := exec_rxi_next_cases hp h <;> rfl

/-- A write to CTRL resets the transmit fields exactly where it pulses TX_RST (rules R40, R221). -/
theorem writeCtrl_tx (d : CsrWord) (s : State) :
    (writeCtrl d s).tx = if isTxRst (.csrw 0 d) then TxEngine.reset else s.tx := by
  simp [writeCtrl_eq, isTxRst]

theorem txWrite_of_exec_csr (ha : accepted .csr s = some i) (hp : i.port = .csr) (hs : s'.tx = s.tx)
    (h : exec i s' = .next t) : TxWrite s .csr t.tx := by
  obtain rfl | ⟨_, _, -, rfl⟩ | ⟨d, rfl, rfl⟩ | ⟨d, -, rfl⟩ := exec_csr_next_cases hp h
  · exact txWrite_of_eq hs
  · exact txWrite_of_eq hs
  · rw [writeCtrl_tx]
    split_ifs with hd
    · exact .ctrlReset _ ha hd
    · exact txWrite_of_eq hs
  · rw [writeStatus_eq]
    exact txWrite_of_eq hs

/-- Everything a step can do to the transmit fields. -/
theorem step_txWrite (hu : s.turns = u :: us) (h : step s = .next t) : TxWrite s u t.tx := by
  obtain ⟨-, hrun⟩ := runTurn_of_step hu h
  cases u with
  | txc =>
    obtain rfl | ⟨i, s', ha, hp, hs, hx⟩ := transact_setTurns_cases hrun
    · exact .keep _
    · exact txWrite_of_exec_txc ha hp hs.tx hx
  | rxi =>
    obtain rfl | ⟨i, s', -, hp, hs, hx⟩ := transact_setTurns_cases hrun
    · exact .keep _
    · exact txWrite_of_eq ((exec_rxi_tx hp hx).trans hs.tx)
  | csr =>
    obtain rfl | ⟨i, s', ha, hp, hs, hx⟩ := transact_setTurns_cases hrun
    · exact .keep _
    · exact txWrite_of_exec_csr ha hp hs.tx hx
  | txs =>
    cases hrun
    cases hr : s.rst with
    | true => exact txWrite_of_eq (by simp [hr])
    | false =>
      cases hb : s.tx.busy with
      | false => exact txWrite_of_eq (by simp [hr, txsDeliver_of_idle, hb])
      | true => simpa [hr, txsDeliver_of_busy, hb] using TxWrite.deliver hr hb
  | rxo =>
    cases hrun
    exact txWrite_of_eq (by cases hr : s.rst <;> cases ho : s.rxOut <;> simp [rxoDeliver, hr, ho])
  | resetAssert =>
    cases hrun
    exact .keep _
  | resetRelease =>
    cases hrun
    cases hr : s.rst with
    | true => simpa [hr, hardwareReset_eq] using TxWrite.hardwareReset hr
    | false => exact txWrite_of_eq (by simp [hr])

/-! ## The transmit invariants (rule R25) -/

theorem txHalf_bounds (hl : legal c = true) (x : TxEngine) : 1 ≤ txHalf c x ∧ txHalf c x < 2 ^ 32 := by
  unfold txHalf
  split_ifs
  · exact ⟨halfOne_pos hl, halfOne_lt hl⟩
  · exact ⟨halfZero_pos hl, halfZero_lt hl⟩

theorem txRepeat_bounds (hl : legal c = true) (x : TxEngine) : 1 ≤ txRepeat c x ∧ txRepeat c x ≤ 255 := by
  unfold txRepeat
  split_ifs
  · exact oneRepeat_bounds hl
  · exact zeroRepeat_bounds hl

theorem txInv_reset (c : Config) : TxInv c TxEngine.reset :=
  ⟨fun _ => rfl, nofun, nofun, nofun⟩

/-- A busy engine at the start of a half-cycle: it needs no bound on tx_cnt, since every half-length is positive. -/
theorem txInv_of_cnt_zero (hl : legal c = true) (hb : x.busy = true) (hcnt : x.cnt = 0)
    (hcyc : x.cyc.toNat < txRepeat c x) (hframe : x.mode = .frame → x.bit.toNat ≤ 11 ∧ x.frame.getLsbD 0 = false)
    (hcarrier : x.mode = .carrier → 1 ≤ x.left.toNat) : TxInv c x := by
  refine ⟨fun hi => ?_, fun _ => hframe, fun _ => hcarrier, fun _ => ⟨?_, hcyc⟩⟩
  · rw [hb] at hi
    cases hi
  · rw [hcnt]
    exact (txHalf_bounds hl x).1

theorem txInv_startFrame (hl : legal c = true) (b : Byte) : TxInv c (txStartFrame b) := by
  have hstart : (frameword b).getLsbD 0 = false := by
    rw [frameword, BitVec.getLsbD_append]
    rfl
  exact txInv_of_cnt_zero hl rfl rfl (txRepeat_bounds hl _).1 (fun _ => ⟨Nat.zero_le _, hstart⟩) nofun

theorem one_le_toNat_of_ne_zero {w : Nat} {n : BitVec w} (hn : n ≠ 0) : 1 ≤ n.toNat :=
  Nat.one_le_iff_ne_zero.mpr fun h => hn (BitVec.eq_of_toNat_eq h)

theorem txInv_startCarrier (hl : legal c = true) {n : BitVec 32} (hn : n ≠ 0) : TxInv c (txStartCarrier n) :=
  txInv_of_cnt_zero hl rfl rfl (txRepeat_bounds hl _).1 nofun fun _ => one_le_toNat_of_ne_zero hn

/-- At the end of a carrier cycle the engine idles or has a cycle less to send. -/
theorem txInv_endCarrierCycle (hl : legal c = true) (hb : x.busy = true) (hm : x.mode = .carrier) (hi : TxInv c x) :
    TxInv c (txEndCarrierCycle x) := by
  obtain ⟨-, -, hcarrier, hcounts⟩ := hi
  have hleft := hcarrier hb hm
  unfold txEndCarrierCycle
  split_ifs with hlast
  · exact txInv_reset c
  · refine txInv_of_cnt_zero hl hb rfl (hcounts hb).2 (fun hf => ?_) fun _ => ?_
    · exact absurd (hm.symm.trans hf) (by decide)
    · have hne : x.left.toNat ≠ 1 := fun h => hlast (BitVec.eq_of_toNat_eq h)
      have hlt := x.left.isLt
      simp only [BitVec.toNat_ofNat]
      omega

/-- At the end of a cycle of a bit block the engine goes on to the next cycle, to the next bit, or idles after bit 11. -/
theorem txInv_endFrameCycle (hl : legal c = true) (hb : x.busy = true) (hm : x.mode = .frame) (hi : TxInv c x) :
    TxInv c (txEndFrameCycle c x) := by
  obtain ⟨-, hframe, -, -⟩ := hi
  have ⟨hbit, hstart⟩ := hframe hb hm
  unfold txEndFrameCycle
  split_ifs with hcyc hlast
  · refine txInv_of_cnt_zero hl hb rfl ?_ (fun _ => ⟨hbit, hstart⟩) fun hc => ?_
    · have hrep := (txRepeat_bounds hl x).2
      rw [BitVec.toNat_ofNat, Nat.mod_eq_of_lt (by omega)]
      exact hcyc
    · exact absurd (hm.symm.trans hc) (by decide)
  · exact txInv_reset c
  · refine txInv_of_cnt_zero hl hb rfl (txRepeat_bounds hl _).1 (fun _ => ⟨?_, hstart⟩) fun hc => ?_
    · have hne : x.bit.toNat ≠ 11 := fun h => hlast (BitVec.eq_of_toNat_eq h)
      simp only [BitVec.toNat_ofNat]
      omega
    · exact absurd (hm.symm.trans hc) (by decide)

/-- The delivery step keeps the invariants (rule R115). -/
theorem txInv_advance (hl : legal c = true) (hb : x.busy = true) (hi : TxInv c x) : TxInv c (txAdvance c x) := by
  obtain ⟨hcnt, heq⟩ | ⟨-, -, heq⟩ | ⟨-, -, hm, heq⟩ | ⟨-, -, hm, heq⟩ := txAdvance_cases c x
  · obtain ⟨hidle, hframe, hcarrier, hcounts⟩ := hi
    have hhalf := (txHalf_bounds hl x).2
    rw [heq]
    refine ⟨fun hf => ?_, hframe, hcarrier, fun _ => ⟨?_, (hcounts hb).2⟩⟩
    · exact absurd (hb.symm.trans hf) (by decide)
    · rw [BitVec.toNat_ofNat, Nat.mod_eq_of_lt (by omega)]
      exact hcnt
  · obtain ⟨-, hframe, hcarrier, hcounts⟩ := hi
    rw [heq]
    exact txInv_of_cnt_zero hl hb rfl (hcounts hb).2 (hframe hb) (hcarrier hb)
  · exact heq ▸ txInv_endCarrierCycle hl hb hm hi
  · exact heq ▸ txInv_endFrameCycle hl hb hm hi

theorem TxWrite.txInv (hl : legal s.cfg = true) (hi : TxInv s.cfg s.tx) (hw : TxWrite s u x) : TxInv s.cfg x := by
  cases hw with
  | keep => exact hi
  | frame b => exact txInv_startFrame hl b
  | carrier i n ha hc hn => exact txInv_startCarrier hl hn
  | deliver hr hb => exact txInv_advance hl hb hi
  | hardwareReset => exact txInv_reset _
  | ctrlReset => exact txInv_reset _

/-- Settles O28: every way a step can write the transmit fields keeps their invariants, and no step writes the
parameters. -/
theorem stepKeepsTransmitInvariants : Obligations.StepKeepsTransmitInvariants := by
  intro s t hl hi h
  rw [step_next_cfg h]
  refine ⟨hl, ?_⟩
  cases hu : s.turns with
  | nil =>
    rw [step_of_no_turn hl hu] at h
    cases h
    exact hi
  | cons u us => exact (step_txWrite hu h).txInv hl hi

/-! ## Only tx_busy is read outside the engine (rule R24) -/

theorem csrRead_setTx (hx : x.busy = s.tx.busy) (idx : BitVec 3) : csrRead idx (s.setTx x) = csrRead idx s := by
  simp [csrRead, statusWord, rxoValid, hx]

theorem portReady_setTx (hx : x.busy = s.tx.busy) : portReady p (s.setTx x) = portReady p s := by
  cases p with
  | txc => simp [portReady, txcReady, hx]
  | rxi | csr => rfl

/-- The gate of rxi does not look at the transmit fields. -/
theorem onRxi_setTx (x : TxEngine) {f : State → State} (hf : f (s.setTx x) = (f s).setTx x) (h : onRxi f s = .next t) :
    onRxi f (s.setTx x) = .next (t.setTx x) := by
  obtain ⟨hl, ⟨hr, rfl⟩ | ⟨hr, rfl⟩⟩ := onRxi_next_cases h
  · rw [← hf]
    exact onRxi_of_ready hl hr
  · exact onRxi_of_stall hl hr

/-- A receive transaction does the same whatever the transmit fields hold. -/
theorem exec_rxi_setTx (x : TxEngine) (hp : i.port = .rxi) (h : exec i s = .next t) :
    exec i (s.setTx x) = .next (t.setTx x) := by
  cases i with
  | rxs v => exact onRxi_setTx x rfl (exec_rxs v s ▸ h)
  | rxe => exact onRxi_setTx x rfl (exec_rxe s ▸ h)
  | illegalRxi w => exact onRxi_setTx x rfl (exec_illegalRxi w s ▸ h)
  | txb | txc | txcc | illegalTxc | csrr | csrw => cases hp

/-- A write to a control register does the same to the rest of the block whatever the transmit fields hold. -/
theorem csrWrite_setTx (x : TxEngine) (idx : BitVec 3) (d : CsrWord) (s : State) :
    ∃ y, csrWrite idx d (s.setTx x) = (csrWrite idx d s).setTx y := by
  by_cases h0 : idx = 0
  · subst h0
    refine ⟨if d.getLsbD 0 then TxEngine.reset else x, ?_⟩
    rw [csrWrite_ctrl, csrWrite_ctrl, writeCtrl_eq, writeCtrl_eq]
    rfl
  · refine ⟨x, ?_⟩
    by_cases h1 : idx = 1
    · subst h1
      rw [csrWrite_status, csrWrite_status, writeStatus_eq, writeStatus_eq]
      rfl
    · rw [csrWrite_reserved h0 h1, csrWrite_reserved h0 h1]

/-- A control-register access sees of the transmit fields tx_busy alone. -/
theorem exec_csr_setTx (hx : x.busy = s.tx.busy) (hp : i.port = .csr) (h : exec i s = .next t) :
    ∃ y, exec i (s.setTx x) = .next (t.setTx y) := by
  cases i with
  | csrr idx d =>
    obtain ⟨hl, rfl⟩ := onCsr_next_cases (exec_csrr idx d s ▸ h)
    refine ⟨x, ?_⟩
    rw [exec_csrr, onCsr_of_legal (s := s.setTx x) hl, csrRead_setTx hx]
    rfl
  | csrw idx d =>
    obtain ⟨hl, rfl⟩ := onCsr_next_cases (exec_csrw idx d s ▸ h)
    obtain ⟨y, hy⟩ := csrWrite_setTx x idx d s
    exact ⟨y, by rw [exec_csrw, onCsr_of_legal (s := s.setTx x) hl, hy]⟩
  | txb | txc | txcc | illegalTxc | rxs | rxe | illegalRxi => cases hp

/-- The turn of a port other than txc sees of the transmit fields tx_busy alone. -/
theorem transact_setTx (hpne : p ≠ .txc) (hx : x.busy = s.tx.busy) (h : transact p s = .next t) :
    ∃ y, transact p (s.setTx x) = .next (t.setTx y) := by
  obtain ⟨rfl, hg⟩ | ⟨i, s', ha, hexec, hg⟩ := transact_edit (keepsOffers_setTx x) (portReady_setTx hx) h
  · exact ⟨x, hg⟩
  · have hp := port_of_accept ha
    have hx' : x.busy = s'.tx.busy := by rw [(sameEngines_of_accept ha).tx, hx]
    rw [hg]
    cases p with
    | txc => exact absurd rfl hpne
    | rxi => exact ⟨x, exec_rxi_setTx x hp hexec⟩
    | csr => exact exec_csr_setTx hx' hp hexec

theorem rxoDeliver_setTx (x : TxEngine) (s : State) : rxoDeliver (s.setTx x) = (rxoDeliver s).setTx x := by
  cases ho : s.rxOut with
  | nil => rw [rxoDeliver_of_empty ho, rxoDeliver_of_empty (s := s.setTx x) ho]
  | cons b bs =>
    rw [rxoDeliver_of_cons ho, rxoDeliver_of_cons (s := s.setTx x) ho]
    rfl

/-- A turn that is neither txc nor txs sees of the transmit fields tx_busy alone. -/
theorem runTurn_setTx (htxc : u ≠ .txc) (htxs : u ≠ .txs) (hx : x.busy = s.tx.busy) (h : runTurn u s = .next t) :
    ∃ y, runTurn u (s.setTx x) = .next (t.setTx y) := by
  cases u with
  | txc => exact absurd rfl htxc
  | txs => exact absurd rfl htxs
  | rxi => exact transact_setTx (by decide) hx h
  | csr => exact transact_setTx (by decide) hx h
  | rxo =>
    cases h
    refine ⟨x, congrArg Host.Outcome.next ?_⟩
    rw [setTx_rst, rxoDeliver_setTx]
    cases s.rst <;> rfl
  | resetAssert =>
    cases h
    exact ⟨x, rfl⟩
  | resetRelease =>
    cases h
    cases hr : s.rst
    · exact ⟨x, by simp [runTurn, hr]⟩
    · exact ⟨TxEngine.reset, by simp [runTurn, hr, hardwareReset_eq, State.setTx]⟩

theorem TxWrite.writer (hw : TxWrite s u x) (hne : x ≠ s.tx) :
    (u = .txc ∧ ∃ i, accepted .txc s = some i
        ∧ ((∃ b, i = .txb b) ∨ (∃ n, i = .txc n) ∨ (∃ n, i = .txcc n)))
      ∨ (u = .txs ∧ s.rst = false)
      ∨ (u = .resetRelease ∧ s.rst = true ∧ x = TxEngine.reset)
      ∨ (u = .csr ∧ x = TxEngine.reset ∧ ∃ i, accepted .csr s = some i ∧ isTxRst i = true) := by
  cases hw with
  | keep => exact absurd rfl hne
  | frame b ha => exact .inl ⟨rfl, _, ha, .inl ⟨b, rfl⟩⟩
  | carrier i n ha hi => exact .inl ⟨rfl, i, ha, .inr hi⟩
  | deliver hr => exact .inr (.inl ⟨rfl, hr⟩)
  | hardwareReset hr => exact .inr (.inr (.inl ⟨rfl, hr, rfl⟩))
  | ctrlReset i ha hi => exact .inr (.inr (.inr ⟨rfl, rfl, i, ha, hi⟩))

/-- Settles O29: the writers are the cases of a step's effect on the transmit fields, and the other turns commute with an
edit of these fields that keeps tx_busy. -/
theorem transmitFieldsHaveFewWriters : Obligations.TransmitFieldsHaveFewWriters := by
  intro s t u us hu h
  refine ⟨(step_txWrite hu h).writer, statusWord_busy t, fun htxc htxs x hx => ?_⟩
  obtain ⟨hl, hrun⟩ := runTurn_of_step hu h
  obtain ⟨y, hy⟩ := runTurn_setTx (s := s.setTurns us) htxc htxs hx hrun
  exact ⟨y, (step_of_turn (s := s.setTx x) hl hu).trans hy⟩

end Sys2Proof.Machine
end

section
/-!
PROOFS. The receive fields and rx_out (10_state.md rules R30 to R37): what can write them, their invariants, and that the
transmit engine neither reads nor writes one.
-/

namespace Sys2Proof.Machine

variable {c : Config} {s s' t : State} {r : RxEngine} {o : List Byte} {e : Bool} {u : Turn} {us : List Turn}
  {i : Instr}

/-! ## What a step writes into the receive fields -/

/-- The receive fields and the rx_out a turn can leave behind it, with what writes them (rule R37). -/
inductive RxWrite (s : State) : Turn → RxEngine → List Byte → Prop where
  | keep (u : Turn) : RxWrite s u s.rx s.rxOut
  | sample (v : Byte) (ha : accepted .rxi s = some (.rxs v)) (hr : rxStall s = false) :
      RxWrite s .rxi (rxTake s.cfg v s.rx).1 (s.rxOut ++ (rxTake s.cfg v s.rx).2.toList)
  | endOfStream (ha : accepted .rxi s = some .rxe) :
      RxWrite s .rxi (RxEngine.reset s.cfg.framesPerBit) s.rxOut
  | deliver (b : Byte) (bs : List Byte) (ho : s.rxOut = b :: bs) : RxWrite s .rxo s.rx bs
  | hardwareReset (hr : s.rst = true) : RxWrite s .resetRelease (RxEngine.reset s.cfg.framesPerBit) []
  | ctrlReset (i : Instr) (ha : accepted .csr s = some i) (hi : isRxRst i = true) :
      RxWrite s .csr (RxEngine.reset s.cfg.framesPerBit) []

theorem rxWrite_of_eq (hr : r = s.rx) (ho : o = s.rxOut) : RxWrite s u r o := by
  subst hr ho
  exact .keep u

/-- No transmit transaction writes a receive field or rx_out. -/
theorem exec_txc_rx (hp : i.port = .txc) (h : exec i s = .next t) : t.rx = s.rx ∧ t.rxOut = s.rxOut := by
  obtain rfl | ⟨_, -, rfl⟩ | ⟨-, _, -, rfl⟩ | ⟨_, -, rfl⟩ := exec_txc_next_cases hp h <;> exact ⟨rfl, rfl⟩

theorem rxWrite_of_exec_rxi (ha : accepted .rxi s = some i) (hp : i.port = .rxi) (hs : SameEngines s s')
    (h : exec i s' = .next t) : RxWrite s .rxi t.rx t.rxOut := by
  obtain rfl | ⟨v, rfl, hr, rfl⟩ | ⟨rfl, rfl⟩ | ⟨_, -, rfl⟩ := exec_rxi_next_cases hp h
  · exact rxWrite_of_eq hs.rx hs.rxOut
  · rw [hs.rxStall] at hr
    rw [hs.cfg, hs.rx, emitRxo, setRx_rxOut, hs.rxOut]
    exact .sample v ha hr
  · rw [hs.cfg, setRx_rxOut, hs.rxOut]
    exact .endOfStream ha
  · exact rxWrite_of_eq hs.rx hs.rxOut

/-- A write to CTRL resets the receive fields exactly where it pulses RX_RST (rules R40, R222). -/
theorem writeCtrl_rx (d : CsrWord) (s : State) :
    (writeCtrl d s).rx = if isRxRst (.csrw 0 d) then RxEngine.reset s.cfg.framesPerBit else s.rx := by
  simp [writeCtrl_eq, isRxRst]

theorem writeCtrl_rxOut (d : CsrWord) (s : State) :
    (writeCtrl d s).rxOut = if isRxRst (.csrw 0 d) then [] else s.rxOut := by
  simp [writeCtrl_eq, isRxRst]

theorem rxWrite_of_exec_csr (ha : accepted .csr s = some i) (hp : i.port = .csr) (hs : SameEngines s s')
    (h : exec i s' = .next t) : RxWrite s .csr t.rx t.rxOut := by
  obtain rfl | ⟨_, _, -, rfl⟩ | ⟨d, rfl, rfl⟩ | ⟨d, -, rfl⟩ := exec_csr_next_cases hp h
  · exact rxWrite_of_eq hs.rx hs.rxOut
  · exact rxWrite_of_eq hs.rx hs.rxOut
  · rw [writeCtrl_rx, writeCtrl_rxOut, hs.cfg]
    split_ifs with hd
    · exact .ctrlReset _ ha hd
    · exact rxWrite_of_eq hs.rx hs.rxOut
  · rw [writeStatus_eq]
    exact rxWrite_of_eq hs.rx hs.rxOut

/-- Everything a step can do to the receive fields and rx_out. -/
theorem step_rxWrite (hu : s.turns = u :: us) (h : step s = .next t) : RxWrite s u t.rx t.rxOut := by
  obtain ⟨-, hrun⟩ := runTurn_of_step hu h
  cases u with
  | txc =>
    obtain rfl | ⟨i, s', -, hp, hs, hx⟩ := transact_setTurns_cases hrun
    · exact .keep _
    · obtain ⟨hrx, hout⟩ := exec_txc_rx hp hx
      exact rxWrite_of_eq (hrx.trans hs.rx) (hout.trans hs.rxOut)
  | rxi =>
    obtain rfl | ⟨i, s', ha, hp, hs, hx⟩ := transact_setTurns_cases hrun
    · exact .keep _
    · exact rxWrite_of_exec_rxi ha hp hs hx
  | csr =>
    obtain rfl | ⟨i, s', ha, hp, hs, hx⟩ := transact_setTurns_cases hrun
    · exact .keep _
    · exact rxWrite_of_exec_csr ha hp hs hx
  | txs =>
    cases hrun
    cases hr : s.rst <;> cases hb : s.tx.busy <;>
      exact rxWrite_of_eq (by simp [hr, hb, txsDeliver, txsValid]) (by simp [hr, hb, txsDeliver, txsValid])
  | rxo =>
    cases hrun
    cases hr : s.rst with
    | true => exact rxWrite_of_eq (by simp [hr]) (by simp [hr])
    | false =>
      cases ho : s.rxOut with
      | nil => exact rxWrite_of_eq (by simp [hr, rxoDeliver, ho]) (by simp [hr, rxoDeliver, ho])
      | cons b bs => simpa [hr, rxoDeliver, ho] using RxWrite.deliver b bs ho
  | resetAssert =>
    cases hrun
    exact .keep _
  | resetRelease =>
    cases hrun
    cases hr : s.rst with
    | true => simpa [hr, hardwareReset_eq] using RxWrite.hardwareReset hr
    | false => exact rxWrite_of_eq (by simp [hr]) (by simp [hr])

/-! ## The window: counting its 1 cells (rules R32, R33) -/

theorem ones_replicate_false (n : Nat) : ones (List.replicate n false) = 0 := by
  simp [ones, List.count_replicate]

/-- Overwriting a cell takes its old bit out of the count and brings the new one in. -/
theorem ones_set {win : List Bool} {k : Nat} (hk : k < win.length) (e : Bool) :
    ones (win.set k e) = ones win - (win.getD k false).toNat + e.toNat := by
  rw [ones, List.count_set hk, List.getD_eq_getElem _ _ hk]
  cases win[k] <;> cases e <;> rfl

/-- The slid sum of rule R144 counts the 1 cells of the slid window. -/
theorem slidSum_eq_ones (hw : WindowInv c r) (e : Bool) : slidSum e r = ones (r.win.set r.wptr.toNat e) := by
  obtain ⟨hlen, hptr, hsum, -, -⟩ := hw
  rw [ones_set (hlen ▸ hptr), slidSum, evicted, hsum]

/-- In FILL the cell written is one the fill has not reached, so nothing leaves the count (rule R143). -/
theorem evicted_fill (hw : WindowInv c r) (hst : r.state = .fill) : evicted r = false := by
  obtain ⟨hlen, hptr, -, hfill, -⟩ := hw
  obtain ⟨-, heq, hrest⟩ := hfill hst
  have hk : r.wptr.toNat < r.win.length := hlen ▸ hptr
  rw [evicted, List.getD_eq_getElem _ _ hk]
  refine hrest _ ?_
  rw [← heq, List.drop_eq_getElem_cons hk]
  exact List.mem_cons_self

theorem ones_le_framesPerBit (hlen : r.win.length = c.framesPerBit) (e : Bool) (k : Nat) :
    ones (r.win.set k e) ≤ c.framesPerBit := by
  calc ones (r.win.set k e) ≤ (r.win.set k e).length := List.count_le_length
    _ = c.framesPerBit := List.length_set.trans hlen

/-- The sum of a slid window fits rx_sum. -/
theorem toNat_slidSum (hl : legal c = true) (hw : WindowInv c r) (e : Bool) :
    (BitVec.ofNat 17 (slidSum e r)).toNat = ones (r.win.set r.wptr.toNat e) := by
  have hle := ones_le_framesPerBit hw.1 e r.wptr.toNat
  have hN := (framesPerBit_bounds hl).2
  rw [slidSum_eq_ones hw, BitVec.toNat_ofNat, Nat.mod_eq_of_lt (by omega)]

theorem toNat_nextPtr (hl : legal c = true) (r : RxEngine) :
    (nextPtr c r).toNat = (r.wptr.toNat + 1) % c.framesPerBit := by
  have hN := framesPerBit_bounds hl
  have hlt := Nat.mod_lt (r.wptr.toNat + 1) (show 0 < c.framesPerBit by omega)
  rw [nextPtr, BitVec.toNat_ofNat, Nat.mod_eq_of_lt (by omega)]

theorem nextPtr_lt (hl : legal c = true) (r : RxEngine) : (nextPtr c r).toNat < c.framesPerBit := by
  rw [toNat_nextPtr hl]
  exact Nat.mod_lt _ (framesPerBit_bounds hl).1

/-- A window just cleared meets its invariants, in FILL (decision D28, rule R45). -/
theorem windowInv_cleared (hl : legal c = true) (hst : r.state = .fill)
    (hwin : r.win = List.replicate c.framesPerBit false) (hptr : r.wptr = 0) (hfill : r.fill = 0) (hsum : r.sum = 0) :
    WindowInv c r := by
  have hN := (framesPerBit_bounds hl).1
  rw [WindowInv, hst, hwin, hptr, hfill, hsum]
  refine ⟨List.length_replicate, hN, (ones_replicate_false _).symm, fun _ => ⟨hN, rfl, fun e he => ?_⟩,
    fun h => absurd rfl h⟩
  exact List.eq_of_mem_replicate (List.mem_of_mem_drop he)

/-- A sampler with every field 0, in any state but SKIP. -/
theorem samplerInv_rest (hl : legal c = true) (hskip : r.state ≠ .skip)
    (hz : r.acc = 0 ∧ r.cnt = 0 ∧ r.bitn = 0 ∧ r.byte = 0) (hs : r.skip = 0) : SamplerInv c r := by
  obtain ⟨hacc, hcnt, hbitn, hbyte⟩ := hz
  refine ⟨?_, ?_, ?_, fun _ => ⟨hacc, hcnt, hbitn, hbyte⟩, fun h => absurd h hskip, fun _ => hs⟩
  · rw [hcnt]
    exact (framesPerBit_bounds hl).1
  · rw [hacc]
    exact Nat.zero_le _
  · rw [hbitn]
    exact Nat.zero_le _

theorem rxInv_reset (hl : legal c = true) (ho : o.length ≤ c.outDepth) :
    RxInv c (RxEngine.reset c.framesPerBit) o :=
  ⟨windowInv_cleared hl rfl rfl rfl rfl rfl, samplerInv_rest hl nofun ⟨rfl, rfl, rfl, rfl⟩ rfl, ho⟩

/-! ## One sign-change bit, state by state (rules R143 to R146) -/

/-- FILL: the cell at rx_fill takes the bit, and the cells beyond it are still 0. -/
theorem windowInv_fillStep (hl : legal c = true) (hst : r.state = .fill) (hw : WindowInv c r) (e : Bool) :
    WindowInv c (rxFillStep c e r) := by
  have hsum := toNat_slidSum hl hw e
  have hev := evicted_fill hw hst
  have hN := (framesPerBit_bounds hl).2
  obtain ⟨hlen, -, -, hfill, -⟩ := hw
  obtain ⟨hlt, hptr, hrest⟩ := hfill hst
  have hfill' : (rxFillStep c e r).fill.toNat = r.fill.toNat + 1 := by
    rw [rxFillStep, BitVec.toNat_ofNat, Nat.mod_eq_of_lt (by omega)]
  rw [slidSum, hev] at hsum
  refine ⟨List.length_set.trans hlen, nextPtr_lt hl r, hsum, fun hs => ?_, fun hs => ?_⟩
  · have hne : r.fill.toNat + 1 ≠ c.framesPerBit := by
      intro hfull
      simp [rxFillStep, hfull] at hs
    refine ⟨by omega, ?_, fun e' he' => ?_⟩
    · rw [hfill', ← hptr]
      exact (toNat_nextPtr hl r).trans (Nat.mod_eq_of_lt (by omega))
    · rw [hfill', rxFillStep, List.drop_set_of_lt (by omega)] at he'
      exact hrest e' (List.drop_subset_drop_left _ (Nat.le_succ _) he')
  · by_contra hne
    rw [hfill'] at hne
    exact hs (by rw [rxFillStep, if_neg hne, hst])

theorem rxFillStep_state_ne_skip (hst : r.state = .fill) : (rxFillStep c e r).state ≠ .skip := by
  rw [rxFillStep, hst]
  split_ifs <;> exact nofun

theorem samplerInv_fillStep (hl : legal c = true) (hst : r.state = .fill) (hs : SamplerInv c r) :
    SamplerInv c (rxFillStep c e r) := by
  obtain ⟨-, -, -, hzero, -, hskip⟩ := hs
  have hz := hzero (by rw [hst]; decide)
  have hk := hskip (by rw [hst]; decide)
  exact samplerInv_rest hl (rxFillStep_state_ne_skip hst) hz hk

/-- SEEK's slide as its own record: the window is full and stays so, and the state is SEEK or SAMPLE. -/
theorem rxSeekStep_cases (c : Config) (e : Bool) (r : RxEngine) :
    rxSeekStep c e r = { r with
        win := r.win.set r.wptr.toNat e, wptr := nextPtr c r, sum := BitVec.ofNat 17 (slidSum e r) }
      ∨ rxSeekStep c e r = { r with
        win := r.win.set r.wptr.toNat e, wptr := nextPtr c r, sum := BitVec.ofNat 17 (slidSum e r)
        state := .sample, acc := 0, cnt := 0, bitn := 0, byte := 0 } := by
  rw [rxSeekStep]
  split_ifs
  · exact .inr rfl
  · exact .inl rfl

theorem windowInv_seekStep (hl : legal c = true) (hst : r.state = .seek) (hw : WindowInv c r) (e : Bool) :
    WindowInv c (rxSeekStep c e r) := by
  have hsum := toNat_slidSum hl hw e
  have hptr := nextPtr_lt hl r
  obtain ⟨hlen, -, -, -, hfull⟩ := hw
  have hfull := hfull (by rw [hst]; decide)
  have hlen : (r.win.set r.wptr.toNat e).length = c.framesPerBit := List.length_set.trans hlen
  obtain h | h := rxSeekStep_cases c e r
  · rw [h]
    exact ⟨hlen, hptr, hsum, fun hf => absurd (hst.symm.trans hf) (by decide), fun _ => hfull⟩
  · rw [h]
    exact ⟨hlen, hptr, hsum, nofun, fun _ => hfull⟩

theorem samplerInv_seekStep (hl : legal c = true) (hst : r.state = .seek) (hs : SamplerInv c r) :
    SamplerInv c (rxSeekStep c e r) := by
  have hN := (framesPerBit_bounds hl).1
  obtain ⟨-, -, -, hzero, -, hskip⟩ := hs
  have hz := hzero (by rw [hst]; decide)
  have hk := hskip (by rw [hst]; decide)
  obtain h | h := rxSeekStep_cases c e r
  · rw [h]
    exact samplerInv_rest hl (by rw [hst]; decide) hz hk
  · rw [h]
    exact ⟨hN, Nat.le_refl _, Nat.zero_le _, fun hne => absurd rfl hne, nofun, fun _ => hk⟩

/-- Everything SAMPLE can do: count a bit, complete a data bit, or complete the byte (rule R145). -/
theorem rxSampleStep_cases (c : Config) (e : Bool) (r : RxEngine) :
    (r.cnt.toNat + 1 < c.framesPerBit ∧ rxSampleStep c e r = ({ r with
        acc := BitVec.ofNat 17 (r.acc.toNat + e.toNat), cnt := BitVec.ofNat 16 (r.cnt.toNat + 1) }, none))
      ∨ (c.framesPerBit ≤ r.cnt.toNat + 1 ∧ r.bitn.toNat < 7 ∧ rxSampleStep c e r = ({ r with
        acc := 0, cnt := 0, byte := withDataBit c (r.acc.toNat + e.toNat) r
        bitn := BitVec.ofNat 4 (r.bitn.toNat + 1) }, none))
      ∨ (c.framesPerBit ≤ r.cnt.toNat + 1 ∧ 7 ≤ r.bitn.toNat ∧ rxSampleStep c e r = ({ r with
        acc := 0, cnt := 0, byte := 0, bitn := 0, state := .skip, skip := BitVec.ofNat 18 (skipLen c) },
        some (withDataBit c (r.acc.toNat + e.toNat) r))) := by
  rw [rxSampleStep]
  split_ifs with hcnt hbit
  · exact .inl ⟨hcnt, rfl⟩
  · exact .inr (.inl ⟨Nat.le_of_not_lt hcnt, hbit, rfl⟩)
  · exact .inr (.inr ⟨Nat.le_of_not_lt hcnt, Nat.le_of_not_lt hbit, rfl⟩)

/-- Outside FILL the window's invariants do not depend on the sampler, and any state but FILL keeps them. -/
theorem windowInv_of_same_window {r' : RxEngine} (hw : WindowInv c r) (hst : r.state ≠ .fill) (hst' : r'.state ≠ .fill)
    (hwin : r'.win = r.win) (hptr : r'.wptr = r.wptr) (hfill : r'.fill = r.fill) (hsum : r'.sum = r.sum) :
    WindowInv c r' := by
  obtain ⟨hlen, hlt, hones, -, hfull⟩ := hw
  rw [WindowInv, hwin, hptr, hfill, hsum]
  exact ⟨hlen, hlt, hones, fun h => absurd h hst', fun _ => hfull hst⟩

theorem windowInv_sampleStep (hst : r.state = .sample) (hw : WindowInv c r) (e : Bool) :
    WindowInv c (rxSampleStep c e r).1 := by
  have hne : r.state ≠ .fill := by rw [hst]; decide
  obtain ⟨-, h⟩ | ⟨-, -, h⟩ | ⟨-, -, h⟩ := rxSampleStep_cases c e r
  · rw [h]
    exact windowInv_of_same_window hw hne hne rfl rfl rfl rfl
  · rw [h]
    exact windowInv_of_same_window hw hne hne rfl rfl rfl rfl
  · rw [h]
    exact windowInv_of_same_window hw hne nofun rfl rfl rfl rfl

/-- SKIP_LEN is positive and fits rx_skip (rule R35). -/
theorem toNat_skipLen (hl : legal c = true) :
    1 ≤ skipLen c ∧ (BitVec.ofNat 18 (skipLen c)).toNat = skipLen c := by
  have hN := framesPerBit_bounds hl
  have hlen := skipLen_eq hl
  refine ⟨by omega, ?_⟩
  rw [BitVec.toNat_ofNat, Nat.mod_eq_of_lt (by omega)]

theorem samplerInv_sampleStep (hl : legal c = true) (hst : r.state = .sample) (hs : SamplerInv c r) (e : Bool) :
    SamplerInv c (rxSampleStep c e r).1 := by
  have hN := framesPerBit_bounds hl
  obtain ⟨-, hacc, hbitn, -, -, hskip⟩ := hs
  have hk := hskip (by rw [hst]; decide)
  obtain ⟨hcnt, h⟩ | ⟨-, hbit, h⟩ | ⟨-, -, h⟩ := rxSampleStep_cases c e r
  · have he := e.toNat_le
    rw [h]
    refine ⟨?_, ?_, hbitn, fun hne => absurd hst hne, fun hsk => ?_, fun _ => hk⟩
    · rw [BitVec.toNat_ofNat, Nat.mod_eq_of_lt (by omega)]
      exact hcnt
    · simp only [BitVec.toNat_ofNat]
      omega
    · exact absurd (hst.symm.trans hsk) (by decide)
  · rw [h]
    refine ⟨hN.1, Nat.le_refl _, ?_, fun hne => absurd hst hne, fun hsk => ?_, fun _ => hk⟩
    · simp only [BitVec.toNat_ofNat]
      omega
    · exact absurd (hst.symm.trans hsk) (by decide)
  · obtain ⟨hpos, hlen⟩ := toNat_skipLen hl
    rw [h]
    refine ⟨hN.1, Nat.le_refl _, Nat.zero_le _, fun _ => ⟨rfl, rfl, rfl, rfl⟩, fun _ => ?_, fun hne => absurd rfl hne⟩
    rw [hlen]
    exact ⟨hpos, Nat.le_refl _⟩

/-- Everything SKIP can do: count a discarded bit, or enter FILL with a cleared window (rule R146). -/
theorem rxSkipStep_cases (c : Config) (r : RxEngine) :
    (1 < r.skip.toNat ∧ rxSkipStep c r = { r with skip := BitVec.ofNat 18 (r.skip.toNat - 1) })
      ∨ (r.skip.toNat ≤ 1 ∧ rxSkipStep c r = { r with
          state := .fill, win := List.replicate c.framesPerBit false, wptr := 0, fill := 0, sum := 0, skip := 0 }) := by
  rw [rxSkipStep]
  split_ifs with h
  · exact .inl ⟨h, rfl⟩
  · exact .inr ⟨Nat.le_of_not_lt h, rfl⟩

theorem windowInv_skipStep (hl : legal c = true) (hst : r.state = .skip) (hw : WindowInv c r) :
    WindowInv c (rxSkipStep c r) := by
  have hne : r.state ≠ .fill := by rw [hst]; decide
  obtain ⟨-, h⟩ | ⟨-, h⟩ := rxSkipStep_cases c r
  · rw [h]
    exact windowInv_of_same_window hw hne hne rfl rfl rfl rfl
  · rw [h]
    exact windowInv_cleared hl rfl rfl rfl rfl rfl

theorem samplerInv_skipStep (hl : legal c = true) (hst : r.state = .skip) (hs : SamplerInv c r) :
    SamplerInv c (rxSkipStep c r) := by
  obtain ⟨hcnt, hacc, hbitn, hzero, hskip, -⟩ := hs
  have hz := hzero (by rw [hst]; decide)
  have hle := (hskip hst).2
  obtain ⟨hlt, h⟩ | ⟨-, h⟩ := rxSkipStep_cases c r
  · have hbound := r.skip.isLt
    rw [h]
    refine ⟨hcnt, hacc, hbitn, fun _ => hz, fun _ => ?_, fun hne => absurd hst hne⟩
    simp only [BitVec.toNat_ofNat]
    omega
  · rw [h]
    exact samplerInv_rest hl nofun hz rfl

/-! ## One sample (rules R141, R142, R150) -/

/-- One sign-change bit keeps the engine's invariants, whatever the state. -/
theorem engineInv_dispatch (hl : legal c = true) (hw : WindowInv c r) (hs : SamplerInv c r) (e : Bool) :
    WindowInv c (rxDispatch c e r).1 ∧ SamplerInv c (rxDispatch c e r).1 := by
  cases hst : r.state with
  | fill =>
    simp only [rxDispatch, hst]
    exact ⟨windowInv_fillStep hl hst hw e, samplerInv_fillStep hl hst hs⟩
  | seek =>
    simp only [rxDispatch, hst]
    exact ⟨windowInv_seekStep hl hst hw e, samplerInv_seekStep hl hst hs⟩
  | sample =>
    simp only [rxDispatch, hst]
    exact ⟨windowInv_sampleStep hst hw e, samplerInv_sampleStep hl hst hs e⟩
  | skip =>
    simp only [rxDispatch, hst]
    exact ⟨windowInv_skipStep hl hst hw, samplerInv_skipStep hl hst hs⟩

/-- A byte comes out of one sign-change bit only at the last bit of the eighth data bit (rule R145). -/
theorem rxDispatch_emits (h : (rxDispatch c e r).2 ≠ none) :
    r.state = .sample ∧ c.framesPerBit ≤ r.cnt.toNat + 1 ∧ 7 ≤ r.bitn.toNat := by
  cases hst : r.state with
  | fill | seek | skip => exact absurd (by simp only [rxDispatch, hst]) h
  | sample =>
    simp only [rxDispatch, hst] at h
    obtain ⟨-, heq⟩ | ⟨-, -, heq⟩ | ⟨hcnt, hbit, -⟩ := rxSampleStep_cases c e r
    · exact absurd (by rw [heq]) h
    · exact absurd (by rw [heq]) h
    · exact ⟨rfl, hcnt, hbit⟩

/-- An engine that emits a byte and is not stalled has room in rx_out (rules R36, R140). -/
theorem room_of_emits {v : Byte} (hi : RxInv s.cfg s.rx s.rxOut) (hr : rxStall s = false)
    (h : (rxTake s.cfg v s.rx).2 ≠ none) : s.rxOut.length < s.cfg.outDepth := by
  obtain ⟨-, ⟨hcntlt, -, hbitn, -⟩, hout⟩ := hi
  obtain ⟨hst, hcnt, hbit⟩ := rxDispatch_emits h
  refine Nat.lt_of_le_of_ne hout fun hfull => ?_
  have hstall : rxStall s = true := by
    refine rxStall_iff.mpr ⟨hst, BitVec.eq_of_toNat_eq ?_, ?_, hfull⟩
    · exact Nat.le_antisymm hbitn hbit
    · simp only at hcnt
      omega
  rw [hr] at hstall
  cases hstall

/-- RXS keeps the receive invariants: the edge detector's field is in none of them. -/
theorem rxInv_take (hl : legal s.cfg = true) (hi : RxInv s.cfg s.rx s.rxOut) (hr : rxStall s = false) (v : Byte) :
    RxInv s.cfg (rxTake s.cfg v s.rx).1 (s.rxOut ++ (rxTake s.cfg v s.rx).2.toList) := by
  have hroom := room_of_emits (v := v) hi hr
  obtain ⟨hw, hs, hout⟩ := hi
  obtain ⟨hw', hs'⟩ := engineInv_dispatch (r := { s.rx with prev := v.getLsbD 7 }) hl hw hs (edge v s.rx.prev)
  refine ⟨hw', hs', ?_⟩
  cases hb : (rxTake s.cfg v s.rx).2 with
  | none => simpa using hout
  | some b =>
    have := hroom (by rw [hb]; nofun)
    simpa using this

theorem RxWrite.rxInv (hl : legal s.cfg = true) (hi : RxInv s.cfg s.rx s.rxOut) (hw : RxWrite s u r o) :
    RxInv s.cfg r o := by
  have ⟨hwin, hsamp, hout⟩ := hi
  cases hw with
  | keep => exact hi
  | sample v ha hr => exact rxInv_take hl hi hr v
  | endOfStream => exact rxInv_reset hl hout
  | deliver b bs ho =>
    rw [ho] at hout
    exact ⟨hwin, hsamp, Nat.le_of_succ_le hout⟩
  | hardwareReset => exact rxInv_reset hl (Nat.zero_le _)
  | ctrlReset => exact rxInv_reset hl (Nat.zero_le _)

/-- Settles O39: every way a step can write the receive fields or rx_out keeps their invariants. -/
theorem stepKeepsReceiveInvariants : Obligations.StepKeepsReceiveInvariants := by
  intro s t hl hi h
  rw [step_next_cfg h]
  cases hu : s.turns with
  | nil =>
    rw [step_of_no_turn hl hu] at h
    cases h
    exact hi
  | cons u us => exact (step_rxWrite hu h).rxInv hl hi

/-! ## The transmit engine does not see the receive fields (rule R37) -/

/-- The gate of txc does not look at the receive fields. -/
theorem onTxc_setRx_setRxOut {f : State → State} (hf : f ((s.setRx r).setRxOut o) = ((f s).setRx r).setRxOut o)
    (h : onTxc f s = .next t) : onTxc f ((s.setRx r).setRxOut o) = .next ((t.setRx r).setRxOut o) := by
  obtain ⟨hl, ⟨hb, rfl⟩ | ⟨hb, rfl⟩⟩ := onTxc_next_cases h
  · rw [← hf]
    exact onTxc_of_ready hl hb
  · exact onTxc_of_busy hl hb

theorem startCarrier_setRx_setRxOut (n : BitVec 32) (r : RxEngine) (o : List Byte) (s : State) :
    startCarrier n ((s.setRx r).setRxOut o) = ((startCarrier n s).setRx r).setRxOut o := by
  simp only [startCarrier]
  split_ifs <;> rfl

/-- A transmit transaction does the same whatever the receive fields and rx_out hold. -/
theorem exec_txc_setRx_setRxOut (r : RxEngine) (o : List Byte) (hp : i.port = .txc) (h : exec i s = .next t) :
    exec i ((s.setRx r).setRxOut o) = .next ((t.setRx r).setRxOut o) := by
  cases i with
  | txb b => exact onTxc_setRx_setRxOut rfl (exec_txb b s ▸ h)
  | txc n => exact onTxc_setRx_setRxOut (startCarrier_setRx_setRxOut _ r o s) (exec_txc n s ▸ h)
  | txcc n => exact onTxc_setRx_setRxOut (startCarrier_setRx_setRxOut _ r o s) (exec_txcc n s ▸ h)
  | illegalTxc w => exact onTxc_setRx_setRxOut rfl (exec_illegalTxc w s ▸ h)
  | rxs | rxe | illegalRxi | csrr | csrw => cases hp

theorem txsDeliver_setRx_setRxOut (r : RxEngine) (o : List Byte) (s : State) :
    txsDeliver ((s.setRx r).setRxOut o) = ((txsDeliver s).setRx r).setRxOut o := by
  cases hb : s.tx.busy with
  | false => rw [txsDeliver_of_idle hb, txsDeliver_of_idle (s := (s.setRx r).setRxOut o) hb]
  | true =>
    rw [txsDeliver_of_busy hb, txsDeliver_of_busy (s := (s.setRx r).setRxOut o) hb]
    rfl

/-- A turn of the transmit engine does the same whatever the receive fields and rx_out hold. -/
theorem runTurn_setRx_setRxOut (r : RxEngine) (o : List Byte) (hu : u = .txc ∨ u = .txs) (h : runTurn u s = .next t) :
    runTurn u ((s.setRx r).setRxOut o) = .next ((t.setRx r).setRxOut o) := by
  obtain rfl | rfl := hu
  · obtain ⟨rfl, hg⟩ | ⟨i, s', ha, hexec, hg⟩ :=
      transact_edit (p := .txc) (keepsOffers_setRx_setRxOut r o) rfl h
    · exact hg
    · exact hg.trans (exec_txc_setRx_setRxOut r o (port_of_accept ha) hexec)
  · cases h
    refine congrArg Host.Outcome.next ?_
    rw [setRxOut_rst, setRx_rst, txsDeliver_setRx_setRxOut]
    cases s.rst <;> rfl

theorem RxWrite.writer (hw : RxWrite s u r o) (hne : r ≠ s.rx) :
    (u = .rxi ∧ ∃ i, accepted .rxi s = some i
        ∧ ((∃ v, i = .rxs v) ∨ (i = .rxe ∧ r = RxEngine.reset s.cfg.framesPerBit)))
      ∨ (u = .resetRelease ∧ s.rst = true ∧ r = RxEngine.reset s.cfg.framesPerBit)
      ∨ (u = .csr ∧ r = RxEngine.reset s.cfg.framesPerBit ∧ ∃ i, accepted .csr s = some i ∧ isRxRst i = true) := by
  cases hw with
  | keep => exact absurd rfl hne
  | sample v ha => exact .inl ⟨rfl, _, ha, .inl ⟨v, rfl⟩⟩
  | endOfStream ha => exact .inl ⟨rfl, _, ha, .inr ⟨rfl, rfl⟩⟩
  | deliver => exact absurd rfl hne
  | hardwareReset hr => exact .inr (.inl ⟨rfl, hr, rfl⟩)
  | ctrlReset i ha hi => exact .inr (.inr ⟨rfl, rfl, i, ha, hi⟩)

/-- Settles O40: the writers are the cases of a step's effect on the receive fields, and the turns of the transmit engine
commute with every edit of these fields and of rx_out. -/
theorem receiveFieldsHaveFewWriters : Obligations.ReceiveFieldsHaveFewWriters := by
  intro s t u us hu h
  refine ⟨(step_rxWrite hu h).writer, ⟨statusWord_rxState t, statusWord_rxoValid t⟩, fun htx r o => ?_⟩
  obtain ⟨hl, hrun⟩ := runTurn_of_step hu h
  exact (step_of_turn (s := (s.setRx r).setRxOut o) hl hu).trans
    (runTurn_setRx_setRxOut (s := s.setTurns us) r o htx hrun)

end Sys2Proof.Machine
end

section
/-!
PROOFS. The control registers (10_state.md rules R40 to R42, 42_csr.md rules R180 and R181) and the values every field
holds after a hardware reset (rule R45).
-/

namespace Sys2Proof.Machine

variable {s : State}

/-! ## The request's WE bit (rule R89) -/

theorem weMask_eq_zero_iff (q : CsrReq) : q &&& 0x800000000#36 = 0x000000000#36 ↔ q.getLsbD 35 = false := by
  rw [show 0x800000000#36 = BitVec.twoPow 36 35 by decide, BitVec.and_twoPow]
  cases q.getLsbD 35 <;> decide

theorem decodeCsr_of_read {q : CsrReq} (h : q.getLsbD 35 = false) :
    decodeCsr q = .csrr (q.extractLsb' 32 3) (q.extractLsb' 0 32) := by
  rw [decodeCsr, if_pos ((weMask_eq_zero_iff q).mpr h)]

theorem decodeCsr_of_write {q : CsrReq} (h : q.getLsbD 35 = true) :
    decodeCsr q = .csrw (q.extractLsb' 32 3) (q.extractLsb' 0 32) := by
  rw [decodeCsr, if_neg ((weMask_eq_zero_iff q).not.mpr (by rw [h]; decide))]

/-! ## Reads (rules R41, R180) -/

theorem csrRead_status (s : State) : csrRead 1 s = statusWord s := rfl

theorem csrRead_of_ne_one {x : BitVec 3} (h : x ≠ 1) (s : State) : csrRead x s = 0 := if_neg h

/-- What a read gives back is in no register. -/
theorem csrRead_setCsrOut (x : BitVec 3) (ws : List CsrWord) (s : State) :
    csrRead x (s.setCsrOut ws) = csrRead x s := rfl

theorem exec_csrr_of_legal (hl : legal s.cfg = true) (x : BitVec 3) (d : CsrWord) :
    exec (.csrr x d) s = .next (s.setCsrOut (s.csrOut ++ [csrRead x s])) :=
  (exec_csrr x d s).trans (onCsr_of_legal hl)

theorem statusWord_errTxc (s : State) : (statusWord s).getLsbD 8 = s.errTxc := by
  cases hst : s.rx.state <;> simp [getLsbD_statusWord, rxStateCode, hst, -BitVec.getLsbD_eq_getElem]

theorem statusWord_errRxi (s : State) : (statusWord s).getLsbD 9 = s.errRxi := by
  cases hst : s.rx.state <;> simp [getLsbD_statusWord, rxStateCode, hst, -BitVec.getLsbD_eq_getElem]

/-- The bits of STATUS that no field stands at read 0. -/
theorem statusWord_zero_bit (s : State) {k : Nat} (h : 4 ≤ k) (h8 : k ≠ 8) (h9 : k ≠ 9) :
    (statusWord s).getLsbD k = false := by
  have hcode : (rxStateCode s.rx.state).getLsbD (k - 2) = false := BitVec.getLsbD_of_ge _ _ (by omega)
  simp [getLsbD_statusWord, hcode, h8, h9, show k ≠ 0 by omega, show k ≠ 1 by omega, -BitVec.getLsbD_eq_getElem]

theorem statusWord_zero_7_4 (s : State) : (statusWord s).extractLsb' 4 4 = 0#4 := by
  refine BitVec.eq_of_getLsbD_eq fun k hk => ?_
  rw [BitVec.getLsbD_extractLsb', statusWord_zero_bit s (by omega) (by omega) (by omega), BitVec.getLsbD_zero,
    Bool.and_false]

theorem statusWord_zero_31_10 (s : State) : (statusWord s).extractLsb' 10 22 = 0#22 := by
  refine BitVec.eq_of_getLsbD_eq fun k hk => ?_
  rw [BitVec.getLsbD_extractLsb', statusWord_zero_bit s (by omega) (by omega) (by omega), BitVec.getLsbD_zero,
    Bool.and_false]

theorem rxoValid_iff (s : State) : rxoValid s = true ↔ s.rxOut ≠ [] := by
  simp [rxoValid]

/-- While sending, in SEEK, with rx_out empty and no error, STATUS is 5. -/
theorem statusWord_sending_seek (hb : s.tx.busy = true) (hst : s.rx.state = .seek) (ho : s.rxOut = [])
    (het : s.errTxc = false) (her : s.errRxi = false) : statusWord s = 0x00000005#32 := by
  rw [statusWord, rxoValid, hb, hst, ho, het, her]
  rfl

/-- After a hardware reset every bit of STATUS reads 0 (rule R45). -/
theorem statusWord_resetWith (c : Config) : statusWord (State.resetWith c) = 0x00000000#32 := by
  simp only [statusWord, rxoValid, State.resetWith, TxEngine.reset, RxEngine.reset, rxStateCode]
  decide

/-! ## Writes (rules R40, R181) -/

theorem exec_csrw_of_legal (hl : legal s.cfg = true) (x : BitVec 3) (d : CsrWord) :
    exec (.csrw x d) s = .next (csrWrite x d s) :=
  (exec_csrw x d s).trans (onCsr_of_legal hl)

theorem getLsbD_errMask {k : Nat} (hk : k < 32) : (0x300#32).getLsbD k = (decide (k = 8) || decide (k = 9)) := by
  revert k
  decide

/-- A write to STATUS takes the error bits its 1s stand at out of what STATUS reads (rule R41). -/
theorem statusWord_writeStatus (d : CsrWord) (s : State) :
    statusWord (writeStatus d s) = statusWord s &&& ~~~(d &&& 0x300#32) := by
  refine BitVec.eq_of_getLsbD_eq fun k hk => ?_
  rw [BitVec.getLsbD_and, BitVec.getLsbD_not, BitVec.getLsbD_and, getLsbD_errMask hk]
  by_cases h8 : k = 8
  · subst h8
    rw [statusWord_errTxc, statusWord_errTxc, writeStatus_eq]
    cases d.getLsbD 8 <;> simp
  · by_cases h9 : k = 9
    · subst h9
      rw [statusWord_errRxi, statusWord_errRxi, writeStatus_eq]
      cases d.getLsbD 9 <;> simp
    · rw [getLsbD_statusWord, getLsbD_statusWord, writeStatus_eq]
      simp [h8, h9, hk, rxoValid, -BitVec.getLsbD_eq_getElem]

/-- Settles O46: the response is the register's word, STATUS is read bit by bit, and the write to STATUS is compared with
the read before it. -/
theorem controlRegisterRead : Obligations.ControlRegisterRead := by
  refine ⟨fun q hq => decodeCsr_of_read hq, fun x d s hl => ⟨csrRead x s, exec_csrr_of_legal hl x d, ?_,
    fun hx => csrRead_of_ne_one hx s, ?_⟩, ⟨_, exec_csrr_of_legal (s := State.reset) default_legal 1 0, ?_⟩,
    fun d s hl => ?_, fun s hb hst ho het her => statusWord_sending_seek hb hst ho het her⟩
  · refine (exec_csrr_of_legal (s := s.setCsrOut (s.csrOut ++ [csrRead x s])) hl x d).trans ?_
    rw [csrRead_setCsrOut, setCsrOut_csrOut, List.append_assoc]
    rfl
  · rintro rfl
    exact ⟨statusWord_busy s, (statusWord_rxoValid s ▸ rxoValid_iff s), statusWord_rxState s, statusWord_zero_7_4 s,
      statusWord_errTxc s, statusWord_errRxi s, statusWord_zero_31_10 s⟩
  · rw [setCsrOut_csrOut, csrRead_status, State.reset, statusWord_resetWith]
    rfl
  · exact ⟨_, exec_csrw_of_legal hl 1 d, statusWord_writeStatus d s⟩

/-- Settles O47: each index has its own equation, and only index 1 reads anything but 0. -/
theorem controlRegisterWrite : Obligations.ControlRegisterWrite := by
  refine ⟨fun q hq => decodeCsr_of_write hq, fun d s hl => ?_, fun d s hl => ?_, fun x d s hl hx => ?_,
    fun x s hx => csrRead_of_ne_one hx s⟩
  · rw [exec_csrw_of_legal hl, csrWrite_ctrl, writeCtrl_eq]
  · rw [exec_csrw_of_legal hl, csrWrite_status, writeStatus_eq]
    cases d.getLsbD 8 <;> cases d.getLsbD 9 <;> simp
  · rw [exec_csrw_of_legal hl, csrWrite_reserved]
    · rintro rfl
      exact absurd hx (by decide)
    · rintro rfl
      exact absurd hx (by decide)

/-! ## Reset (rule R45) -/

/-- Settles O9: the reset state is written out field by field, and its STATUS is computed from constants. -/
theorem resetValues : Obligations.ResetValues := by
  intro c
  exact ⟨⟨rfl, rfl, rfl, rfl, rfl, rfl, rfl, rfl⟩, ⟨rfl, rfl, rfl, rfl, rfl, rfl, rfl, rfl, rfl, rfl, rfl⟩,
    rfl, rfl, rfl, rfl, statusWord_resetWith c⟩

end Sys2Proof.Machine
end

section
/-!
PROOFS. The handshakes of the ports (20_memory.md rules R61 to R65): a word on offer transfers exactly when its port is ready,
the stall of rule R140 and what lifts it, and the delivery of a byte.
-/

namespace Sys2Proof.Machine

variable {s t : State} {p : InPort} {w : PortWord} {us : List Turn}

/-! ## The turn of a port that carries transactions (rule R61) -/

theorem accept_of_not_ready (hp : portReady p s = false) : accept p s = none := by
  simp [accept, hp]

theorem accept_of_offer (hp : portReady p s = true) (hw : takeWord p s = some (w, t)) :
    accept p s = some (decode w, t) := by
  simp [accept, hp, hw]

/-- At a port that is not ready, the turn changes nothing: what is on offer stays on offer. -/
theorem transact_of_not_ready (hp : portReady p s = false) : transact p s = .next s :=
  transact_of_wait (accept_of_not_ready hp)

/-- At a ready port, the turn is the meaning of the decoded word, in the state with the word taken off. -/
theorem transact_of_offer (hr : s.rst = false) (hp : portReady p s = true) (hw : takeWord p s = some (w, t)) :
    transact p s = exec (decode w) t :=
  transact_of_accept hr (accept_of_offer hp hw)

theorem takeWord_txc {v : TxcWord} {vs : List TxcWord} (h : s.txcIn = v :: vs) :
    takeWord .txc s = some (.txc v, s.setTxcIn vs) := by
  simp [takeWord, h]

theorem takeWord_rxi {v : RxiWord} {vs : List RxiWord} (h : s.rxiIn = v :: vs) :
    takeWord .rxi s = some (.rxi v, s.setRxiIn vs) := by
  simp [takeWord, h]

/-! ## The transmit words (rules R62, R107) -/

theorem txcReady_of_idle (h : s.tx.busy = false) : txcReady s = true := by
  simp [txcReady, h]

theorem txcReady_of_busy (h : s.tx.busy = true) : txcReady s = false := by
  simp [txcReady, h]

/-- Settles O21: the port is ready exactly when the engine is idle, and a turn transfers the word or waits accordingly. -/
theorem transmitWordTransfersWhenIdle : Obligations.TransmitWordTransfersWhenIdle := by
  intro s w ws us hl hr hu hw
  have hstep : step s = transact .txc (s.setTurns us) := step_of_turn hl hu
  refine ⟨fun hidle => ?_, fun hbusy => ?_, rfl, statusWord_busy s⟩
  · exact hstep.trans (transact_of_offer hr (txcReady_of_idle hidle) (takeWord_txc hw))
  · exact hstep.trans (transact_of_not_ready (txcReady_of_busy hbusy))

/-! ## The receive words (rules R64, R140) -/

theorem rxiReady_of_stall (h : rxStall s = true) : rxiReady s = false := by
  simp [rxiReady, h]

theorem rxiReady_of_no_stall (h : rxStall s = false) : rxiReady s = true := by
  simp [rxiReady, h]

/-- A stalled receiver holds a full rx_out, which is not empty; one byte taken from it makes room. -/
theorem rxStall_rxoDeliver (hl : legal s.cfg = true) (h : rxStall s = true) : rxStall (rxoDeliver s) = false := by
  obtain ⟨-, -, -, hfull⟩ := rxStall_iff.mp h
  have hpos := outDepth_pos hl
  cases ho : s.rxOut with
  | nil =>
    rw [ho, List.length_nil] at hfull
    omega
  | cons b bs =>
    rw [ho, List.length_cons] at hfull
    rw [rxoDeliver_of_cons ho, Bool.eq_false_iff]
    intro hstall
    obtain ⟨-, -, -, hfull'⟩ := rxStall_iff.mp hstall
    simp only [setRxoOut_rxOut, setRxOut_rxOut, setRxoOut_cfg, setRxOut_cfg] at hfull'
    omega

/-- Settles O30: `rxStall` is the stall spelled out; without it the word transfers, and at the last bit of a byte rx_out is
not full; with it the turn waits until a byte is taken. -/
theorem receiveWordTransfersUnlessStalled : Obligations.ReceiveWordTransfersUnlessStalled := by
  intro s w ws us hl hr hu hw stall
  have hstep : step s = transact .rxi (s.setTurns us) := step_of_turn hl hu
  have hiff : rxStall s = true ↔ stall := rxStall_iff
  refine ⟨fun hn => ?_, fun hn hi hst hbit hcnt => ?_, fun hs => ?_⟩
  · have hready := rxiReady_of_no_stall (Bool.eq_false_iff.mpr (mt hiff.mp hn))
    exact ⟨hready, hstep.trans (transact_of_offer hr hready (takeWord_rxi hw))⟩
  · obtain ⟨-, -, hroom⟩ := hi
    exact Nat.lt_of_le_of_ne hroom fun hfull => hn ⟨hst, hbit, hcnt, hfull⟩
  · have hstall := hiff.mpr hs
    have hwait := rxiReady_of_stall hstall
    exact ⟨hwait, hstep.trans (transact_of_not_ready hwait), rxiReady_of_no_stall (rxStall_rxoDeliver hl hstall)⟩

/-! ## The delivery of a byte (rules R65, R153) -/

theorem deliver_of_released {f : State → State} (hr : s.rst = false) : deliver f s = .next (f s) := by
  simp [deliver, hr]

/-- Settles O38: the turn delivers with the reset input released, and what it delivers is the head of rx_out, if any. -/
theorem byteDelivery : Obligations.ByteDelivery := by
  intro s us hl hr hu
  have hstep : step s = .next (rxoDeliver (s.setTurns us)) :=
    (step_of_turn hl hu).trans (deliver_of_released hr)
  refine ⟨fun b bs ho => ⟨?_, ?_⟩, fun ho => ⟨?_, ?_⟩⟩
  · exact (rxoValid_iff s).mpr (ho ▸ List.cons_ne_nil b bs)
  · rw [hstep, rxoDeliver_of_cons (s := s.setTurns us) ho]
    rfl
  · exact Bool.eq_false_iff.mpr fun hv => (rxoValid_iff s).mp hv ho
  · rw [hstep, rxoDeliver_of_empty (s := s.setTurns us) ho]
    rfl

end Sys2Proof.Machine
end

section
/-!
PROOFS. Decoding (30_encoding.md rules R81 to R91): a row's match and mask as conditions on the fields of a word, and what
each port's decoder gives, row by row.
-/

namespace Sys2Proof.Machine

/-! ## A match and mask as fields -/

/-- Words that agree in a field agree in each of its bits. -/
theorem getLsbD_eq_of_field_eq {n lo w i : Nat} {v u : BitVec n} (h : v.extractLsb' lo w = u.extractLsb' lo w)
    (hlo : lo ≤ i) (hi : i < lo + w) : v.getLsbD i = u.getLsbD i := by
  have hbit := congrArg (fun x => x.getLsbD (i - lo)) h
  simpa only [BitVec.getLsbD_extractLsb', show i - lo < w by omega, decide_true, Bool.true_and,
    Nat.add_sub_cancel' hlo] using hbit

/-- Words that agree in two fields agree under a mask that lies in those fields. -/
theorem and_mask_eq_of_fields {n p a q b : Nat} {v u mask : BitVec n} (hp : v.extractLsb' p a = u.extractLsb' p a)
    (hq : v.extractLsb' q b = u.extractLsb' q b)
    (hcover : ∀ i < n, mask.getLsbD i = true → (p ≤ i ∧ i < p + a) ∨ (q ≤ i ∧ i < q + b)) :
    v &&& mask = u &&& mask := by
  refine BitVec.eq_of_getLsbD_eq fun i hi => ?_
  rw [BitVec.getLsbD_and, BitVec.getLsbD_and]
  cases hm : mask.getLsbD i with
  | false => rw [Bool.and_false, Bool.and_false]
  | true =>
    obtain ⟨hlo, hhi⟩ | ⟨hlo, hhi⟩ := hcover i hi hm
    · rw [getLsbD_eq_of_field_eq hp hlo hhi]
    · rw [getLsbD_eq_of_field_eq hq hlo hhi]

/-- A word matches a row exactly when the fields that make up the row's mask hold what the match holds there. -/
theorem match_iff_fields {n p a q b : Nat} {mask val : BitVec n} (v : BitVec n) (hval : val &&& mask = val)
    (hp : mask.extractLsb' p a = BitVec.allOnes a) (hq : mask.extractLsb' q b = BitVec.allOnes b)
    (hcover : ∀ i < n, mask.getLsbD i = true → (p ≤ i ∧ i < p + a) ∨ (q ≤ i ∧ i < q + b)) :
    v &&& mask = val ↔ v.extractLsb' p a = val.extractLsb' p a ∧ v.extractLsb' q b = val.extractLsb' q b := by
  refine ⟨fun h => ⟨?_, ?_⟩, fun ⟨hvp, hvq⟩ => ?_⟩
  · exact Laws.RowMatch.field_of_match h hp rfl
  · exact Laws.RowMatch.field_of_match h hq rfl
  · exact (and_mask_eq_of_fields hvp hvq hcover).trans hval

/-! ## The transmit words (rules R81 to R84) -/

theorem txb_match_iff (w : TxcWord) :
    w &&& 0xFFFFFF00#32 = 0x10000000#32 ↔ w.extractLsb' 28 4 = 1#4 ∧ w.extractLsb' 8 20 = 0#20 :=
  match_iff_fields w (by decide) (by decide) (by decide) (by decide)

theorem txc_match_iff (w : TxcWord) :
    w &&& 0xFFFF0000#32 = 0x20000000#32 ↔ w.extractLsb' 28 4 = 2#4 ∧ w.extractLsb' 16 12 = 0#12 :=
  match_iff_fields w (by decide) (by decide) (by decide) (by decide)

theorem txcc_match_iff (w : TxcWord) :
    w &&& 0xFF000000#32 = 0x30000000#32 ↔ w.extractLsb' 28 4 = 3#4 ∧ w.extractLsb' 24 4 = 0#4 :=
  match_iff_fields w (by decide) (by decide) (by decide) (by decide)

/-- The rows of the transmit port differ in OP, so a word matches one of them at most. -/
theorem txc_rows_disjoint (w : TxcWord) :
    ¬ (w &&& 0xFFFFFF00#32 = 0x10000000#32 ∧ w &&& 0xFFFF0000#32 = 0x20000000#32)
      ∧ ¬ (w &&& 0xFFFFFF00#32 = 0x10000000#32 ∧ w &&& 0xFF000000#32 = 0x30000000#32)
      ∧ ¬ (w &&& 0xFFFF0000#32 = 0x20000000#32 ∧ w &&& 0xFF000000#32 = 0x30000000#32) := by
  simp only [txb_match_iff, txc_match_iff, txcc_match_iff]
  have op_clash {k k' : BitVec 4} (hne : k ≠ k') (h : w.extractLsb' 28 4 = k) (h' : w.extractLsb' 28 4 = k') : False :=
    hne (h.symm.trans h')
  exact ⟨fun ⟨⟨h, _⟩, h', _⟩ => op_clash (by decide) h h', fun ⟨⟨h, _⟩, h', _⟩ => op_clash (by decide) h h',
    fun ⟨⟨h, _⟩, h', _⟩ => op_clash (by decide) h h'⟩

/-- Everything the transmit decoder can give: a word of one row alone, or a word of none (rule R91). -/
theorem decodeTxc_cases (w : TxcWord) :
    (w &&& 0xFFFFFF00#32 = 0x10000000#32 ∧ w &&& 0xFFFF0000#32 ≠ 0x20000000#32 ∧ w &&& 0xFF000000#32 ≠ 0x30000000#32
        ∧ decodeTxc w = .txb (w.extractLsb' 0 8))
      ∨ (w &&& 0xFFFFFF00#32 ≠ 0x10000000#32 ∧ w &&& 0xFFFF0000#32 = 0x20000000#32
        ∧ w &&& 0xFF000000#32 ≠ 0x30000000#32 ∧ decodeTxc w = .txc (w.extractLsb' 0 16))
      ∨ (w &&& 0xFFFFFF00#32 ≠ 0x10000000#32 ∧ w &&& 0xFFFF0000#32 ≠ 0x20000000#32
        ∧ w &&& 0xFF000000#32 = 0x30000000#32 ∧ decodeTxc w = .txcc (w.extractLsb' 0 24))
      ∨ (w &&& 0xFFFFFF00#32 ≠ 0x10000000#32 ∧ w &&& 0xFFFF0000#32 ≠ 0x20000000#32
        ∧ w &&& 0xFF000000#32 ≠ 0x30000000#32 ∧ decodeTxc w = .illegalTxc w) := by
  obtain ⟨hbn, hbk, hnk⟩ := txc_rows_disjoint w
  rw [decodeTxc]
  split_ifs with hb hn hk
  · exact .inl ⟨hb, fun hn => hbn ⟨hb, hn⟩, fun hk => hbk ⟨hb, hk⟩, rfl⟩
  · exact .inr (.inl ⟨hb, hn, fun hk => hnk ⟨hn, hk⟩, rfl⟩)
  · exact .inr (.inr (.inl ⟨hb, hn, hk, rfl⟩))
  · exact .inr (.inr (.inr ⟨hb, hn, hk, rfl⟩))

theorem decodeTxc_illegal_iff (w : TxcWord) : decodeTxc w = .illegalTxc w ↔
    w &&& 0xFFFFFF00#32 ≠ 0x10000000#32 ∧ w &&& 0xFFFF0000#32 ≠ 0x20000000#32
      ∧ w &&& 0xFF000000#32 ≠ 0x30000000#32 := by
  obtain ⟨hb, hn, hk, hd⟩ | ⟨hb, hn, hk, hd⟩ | ⟨hb, hn, hk, hd⟩ | ⟨hb, hn, hk, hd⟩ := decodeTxc_cases w <;>
    simp [hb, hn, hk, hd]

theorem decodeTxc_of_txb {w : TxcWord} (h : w &&& 0xFFFFFF00#32 = 0x10000000#32) :
    decodeTxc w = .txb (w.extractLsb' 0 8) := if_pos h

theorem decodeTxc_of_txc {w : TxcWord} (h : w &&& 0xFFFF0000#32 = 0x20000000#32) :
    decodeTxc w = .txc (w.extractLsb' 0 16) := by
  obtain ⟨hbn, -, -⟩ := txc_rows_disjoint w
  rw [decodeTxc, if_neg fun hb => hbn ⟨hb, h⟩, if_pos h]

theorem decodeTxc_of_txcc {w : TxcWord} (h : w &&& 0xFF000000#32 = 0x30000000#32) :
    decodeTxc w = .txcc (w.extractLsb' 0 24) := by
  obtain ⟨-, hbk, hnk⟩ := txc_rows_disjoint w
  rw [decodeTxc, if_neg fun hb => hbk ⟨hb, h⟩, if_neg fun hn => hnk ⟨hn, h⟩, if_pos h]

theorem opcode_cases (o : BitVec 4) : o = 0#4 ∨ o = 1#4 ∨ o = 2#4 ∨ o = 3#4 ∨ 4 ≤ o.toNat := by
  revert o
  decide

/-- The reserved transmit words, by OP and the reserved-zero field of the row OP names (rule R84). -/
theorem decodeTxc_illegal_iff_fields (w : TxcWord) : decodeTxc w = .illegalTxc w ↔
    w.extractLsb' 28 4 = 0#4 ∨ 4 ≤ (w.extractLsb' 28 4).toNat ∨ (w.extractLsb' 28 4 = 1#4 ∧ w.extractLsb' 8 20 ≠ 0#20)
      ∨ (w.extractLsb' 28 4 = 2#4 ∧ w.extractLsb' 16 12 ≠ 0#12)
      ∨ (w.extractLsb' 28 4 = 3#4 ∧ w.extractLsb' 24 4 ≠ 0#4) := by
  rw [decodeTxc_illegal_iff, ne_eq, ne_eq, ne_eq, txb_match_iff, txc_match_iff, txcc_match_iff]
  generalize w.extractLsb' 28 4 = op
  obtain rfl | rfl | rfl | rfl | h := opcode_cases op
  · simp
  · simp
  · simp
  · simp
  · have hne (k : BitVec 4) (hk : k.toNat < 4) : op ≠ k := by
      rintro rfl
      omega
    simp [h, hne 1#4 (by decide), hne 2#4 (by decide), hne 3#4 (by decide)]

/-! ## The receive words (rules R86 to R88) -/

theorem rxs_match_iff (w : RxiWord) : w &&& 0xFF00#16 = 0x0000#16 ↔ w.extractLsb' 8 8 = 0#8 :=
  (match_iff_fields w (p := 8) (a := 8) (q := 8) (b := 8) (by decide) (by decide) (by decide) (by decide)).trans
    and_self_iff

theorem rxe_match_iff (w : RxiWord) :
    w &&& 0xFFFF#16 = 0x0100#16 ↔ w.extractLsb' 8 8 = 1#8 ∧ w.extractLsb' 0 8 = 0#8 :=
  match_iff_fields w (by decide) (by decide) (by decide) (by decide)

/-- The mask of RXE is the whole word. -/
theorem rxe_match_iff_eq (w : RxiWord) : w &&& 0xFFFF#16 = 0x0100#16 ↔ w = 0x0100#16 := by
  rw [show (0xFFFF#16) = BitVec.allOnes 16 by decide, BitVec.and_allOnes]

theorem rxi_rows_disjoint (w : RxiWord) : ¬ (w &&& 0xFF00#16 = 0x0000#16 ∧ w &&& 0xFFFF#16 = 0x0100#16) := by
  rw [rxs_match_iff, rxe_match_iff]
  exact fun ⟨h, h', _⟩ => absurd (h.symm.trans h') (by decide)

/-- Everything the receive decoder can give: a word of one row alone, or a word of none (rule R91). -/
theorem decodeRxi_cases (w : RxiWord) :
    (w &&& 0xFF00#16 = 0x0000#16 ∧ w &&& 0xFFFF#16 ≠ 0x0100#16 ∧ decodeRxi w = .rxs (w.extractLsb' 0 8))
      ∨ (w &&& 0xFF00#16 ≠ 0x0000#16 ∧ w &&& 0xFFFF#16 = 0x0100#16 ∧ decodeRxi w = .rxe)
      ∨ (w &&& 0xFF00#16 ≠ 0x0000#16 ∧ w &&& 0xFFFF#16 ≠ 0x0100#16 ∧ decodeRxi w = .illegalRxi w) := by
  rw [decodeRxi]
  split_ifs with hv he
  · exact .inl ⟨hv, fun he => rxi_rows_disjoint w ⟨hv, he⟩, rfl⟩
  · exact .inr (.inl ⟨hv, he, rfl⟩)
  · exact .inr (.inr ⟨hv, he, rfl⟩)

theorem decodeRxi_of_rxs {w : RxiWord} (h : w &&& 0xFF00#16 = 0x0000#16) :
    decodeRxi w = .rxs (w.extractLsb' 0 8) := if_pos h

theorem decodeRxi_rxe_iff (w : RxiWord) : decodeRxi w = .rxe ↔ w &&& 0xFFFF#16 = 0x0100#16 := by
  obtain ⟨hv, he, hd⟩ | ⟨hv, he, hd⟩ | ⟨hv, he, hd⟩ := decodeRxi_cases w <;> simp only [he, hd, reduceCtorEq]

theorem decodeRxi_illegal_iff (w : RxiWord) : decodeRxi w = .illegalRxi w ↔
    w &&& 0xFF00#16 ≠ 0x0000#16 ∧ w &&& 0xFFFF#16 ≠ 0x0100#16 := by
  obtain ⟨hv, he, hd⟩ | ⟨hv, he, hd⟩ | ⟨hv, he, hd⟩ := decodeRxi_cases w <;> simp [hv, he, hd]

theorem tag_cases (t : BitVec 8) : t = 0#8 ∨ t = 1#8 ∨ 2 ≤ t.toNat := by bv_omega

/-- The reserved receive words, by TAG and the low byte (rule R88). -/
theorem decodeRxi_illegal_iff_fields (w : RxiWord) : decodeRxi w = .illegalRxi w ↔
    (w.extractLsb' 8 8 = 1#8 ∧ w.extractLsb' 0 8 ≠ 0#8) ∨ 2 ≤ (w.extractLsb' 8 8).toNat := by
  rw [decodeRxi_illegal_iff, ne_eq, ne_eq, rxs_match_iff, rxe_match_iff]
  generalize w.extractLsb' 8 8 = tag
  obtain rfl | rfl | h := tag_cases tag
  · simp
  · simp
  · have hne (k : BitVec 8) (hk : k.toNat < 2) : tag ≠ k := by
      rintro rfl
      omega
    simp [h, hne 0#8 (by decide), hne 1#8 (by decide)]

/-! ## The requests (rule R89) -/

theorem weMask_eq_we_iff (q : CsrReq) : q &&& 0x800000000#36 = 0x800000000#36 ↔ q.getLsbD 35 = true := by
  rw [show 0x800000000#36 = BitVec.twoPow 36 35 by decide, BitVec.and_twoPow]
  cases q.getLsbD 35 <;> decide

/-- Settles O3: each port's decoder by the cases of its rows, a request by its WE bit. -/
theorem everyWordHasOneDecoding : Obligations.EveryWordHasOneDecoding := by
  refine ⟨fun w => ?_, fun w => ?_, fun q => ?_, fun x d d' s => rfl⟩
  · obtain ⟨hbn, hbk, hnk⟩ := txc_rows_disjoint w
    refine ⟨hbn, hbk, hnk, txb_match_iff w, txc_match_iff w, txcc_match_iff w, ?_⟩
    rw [decode]
    obtain ⟨hb, hn, hk, hd⟩ | ⟨hb, hn, hk, hd⟩ | ⟨hb, hn, hk, hd⟩ | ⟨hb, hn, hk, hd⟩ := decodeTxc_cases w <;>
      simp [hb, hn, hk, hd]
  · refine ⟨rxi_rows_disjoint w, ?_, (decodeRxi_rxe_iff w).symm, (decodeRxi_illegal_iff w).symm⟩
    rw [decode]
    obtain ⟨hv, he, hd⟩ | ⟨hv, he, hd⟩ | ⟨hv, he, hd⟩ := decodeRxi_cases w <;> simp [hv, hd]
  · rw [weMask_eq_zero_iff, weMask_eq_we_iff, decode]
    cases hq : q.getLsbD 35 with
    | false => simp [decodeCsr_of_read hq]
    | true => simp [decodeCsr_of_write hq]

end Sys2Proof.Machine
end

section
/-!
PROOFS. The transmit transactions (40_tx_synth.md rules R110 to R113): the next state of an idle engine, its STATUS, and the
samples a command just started leaves to deliver.
-/

namespace Sys2Proof.Machine

variable {s : State} {c : Config}

/-! ## An idle engine takes a command (rule R107) -/

theorem exec_txb_of_idle (hl : legal s.cfg = true) (hi : s.tx.busy = false) (b : Byte) :
    exec (.txb b) s = .next (s.setTx (txStartFrame b)) :=
  (exec_txb b s).trans (onTxc_of_ready hl hi)

theorem exec_txc_of_idle (hl : legal s.cfg = true) (hi : s.tx.busy = false) (n : BitVec 16) :
    exec (.txc n) s = .next (startCarrier (secondsCount s.cfg n) s) :=
  (exec_txc n s).trans (onTxc_of_ready hl hi)

theorem exec_txcc_of_idle (hl : legal s.cfg = true) (hi : s.tx.busy = false) (n : BitVec 24) :
    exec (.txcc n) s = .next (startCarrier (cyclesCount n) s) :=
  (exec_txcc n s).trans (onTxc_of_ready hl hi)

theorem exec_illegalTxc_of_idle (hl : legal s.cfg = true) (hi : s.tx.busy = false) (w : TxcWord) :
    exec (.illegalTxc w) s = .next (s.setErrTxc true) :=
  (exec_illegalTxc w s).trans (onTxc_of_ready hl hi)

/-- TX_BUSY is the only bit of STATUS that stands for a transmit field (rule R41). -/
theorem statusWord_setTx_busy {x : TxEngine} (hb : x.busy = true) (s : State) :
    statusWord (s.setTx x) = statusWord s ||| 1 := by
  refine BitVec.eq_of_getLsbD_eq (y := statusWord s ||| 1#32) fun k hk => ?_
  rw [BitVec.getLsbD_or, getLsbD_statusWord, getLsbD_statusWord, BitVec.getLsbD_one]
  by_cases h0 : k = 0
  · simp [h0, hb]
  · simp [h0, rxoValid]

/-! ## The operands' counts (rules R90, R111, R112) -/

theorem secondsCount_eq (hl : legal c = true) (n : BitVec 16) :
    secondsCount c n = BitVec.ofNat 32 (c.carrierCps * n.toNat) := by
  rw [← toNat_secondsCount hl n, BitVec.ofNat_toNat, BitVec.setWidth_eq]

theorem cyclesCount_eq (n : BitVec 24) : cyclesCount n = BitVec.ofNat 32 n.toNat := by
  rw [BitVec.ofNat_toNat, cyclesCount]

/-- A carrier command whose count is a positive number that fits tx_left. -/
theorem startCarrier_ofNat {k : Nat} (hk : k < 2 ^ 32) (h0 : k ≠ 0) (s : State) :
    startCarrier (BitVec.ofNat 32 k) s = s.setTx (txStartCarrier (BitVec.ofNat 32 k)) := by
  refine startCarrier_pos fun h => h0 ?_
  have h := congrArg BitVec.toNat h
  rwa [BitVec.toNat_ofNat, Nat.mod_eq_of_lt hk] at h

/-! ## What a command just started leaves to deliver (rule R106) -/

/-- At the start of a cycle the whole cycle is left. -/
theorem txRestOfCycle_start {t : TxEngine} (hph : t.ph = false) (hcnt : t.cnt = 0) (h : Nat) :
    txRestOfCycle c h t = cycle c h := by
  simp [txRestOfCycle, cycle, hph, hcnt]

theorem append_rep_pred {α : Type} {n : Nat} (hn : 1 ≤ n) (l : List α) : l ++ rep (n - 1) l = rep n l := by
  rw [← rep_succ, Nat.sub_add_cancel hn]

/-- A carrier just started leaves its whole sequence (rule R105). -/
theorem txRest_startCarrier {k : Nat} (hk : k < 2 ^ 32) (h0 : k ≠ 0) (c : Config) :
    txRest c (txStartCarrier (BitVec.ofNat 32 k)) = carrier c k := by
  have hleft : (txStartCarrier (BitVec.ofNat 32 k)).left.toNat = k := by
    rw [txStartCarrier, BitVec.toNat_ofNat, Nat.mod_eq_of_lt hk]
  calc txRest c (txStartCarrier (BitVec.ofNat 32 k))
      = cycle c (halfOne c) ++ carrier c (k - 1) := by
        rw [← txRestOfCycle_start (t := txStartCarrier (BitVec.ofNat 32 k)) rfl rfl]
        exact congrArg (fun n => _ ++ carrier c (n - 1)) hleft
    _ = carrier c k := append_rep_pred (Nat.one_le_iff_ne_zero.mpr h0) _

/-- Position i of a frame is bit i of the packed frame (rule R103). -/
theorem frame_eq_map_frameword (b : Byte) : frame b = (List.range frameLen).map (frameword b).getLsbD := by
  rw [frame, frameLen, show List.range 12 = [0, 1, 2, 3, 4, 5, 6, 7, 8, 9, 10, 11] from rfl]
  simp only [frameword, List.map_cons, List.map_nil, BitVec.getLsbD_append]
  simp

/-- A frame's waveform is the blocks of the packed frame's bits from position 0 (rule R104). -/
theorem blocksFrom_frameword (c : Config) (b : Byte) : blocksFrom c (frameword b) 0 = frameSamples c b := by
  rw [frameSamples, frame_eq_map_frameword, List.flatMap_map, List.range_eq_range']
  rfl

theorem blocksFrom_zero (c : Config) (f : BitVec 12) :
    blocksFrom c f 0 = block c (f.getLsbD 0) ++ blocksFrom c f 1 := rfl

theorem frameword_start (b : Byte) : (frameword b).getLsbD 0 = false := by
  rw [frameword, BitVec.getLsbD_append]
  rfl

/-- A frame just started leaves its whole sequence: it stands in the first cycle of its start bit's block (rule R104). -/
theorem txRest_startFrame (hl : legal c = true) (b : Byte) : txRest c (txStartFrame b) = frameSamples c b := by
  have hstart := frameword_start b
  calc txRest c (txStartFrame b)
      = txRestOfCycle c (halfZero c) (txStartFrame b) ++ rep (c.zeroRepeat - 1) (cycle c (halfZero c))
          ++ blocksFrom c (frameword b) 1 := if_neg (Bool.eq_false_iff.mp hstart)
    _ = block c ((frameword b).getLsbD 0) ++ blocksFrom c (frameword b) 1 := by
        rw [txRestOfCycle_start rfl rfl, append_rep_pred (zeroRepeat_bounds hl).1, hstart]
        rfl
    _ = frameSamples c b := by rw [← blocksFrom_zero, blocksFrom_frameword]

/-- Both bit blocks are 32 samples long at the defaults. -/
theorem length_block_default (bit : Bool) : (block Config.default bit).length = 32 := by
  cases bit <;> rfl

theorem length_frameSamples_default (b : Byte) : (frameSamples Config.default b).length = 384 := by
  simp [frameSamples, frame, length_block_default]

theorem length_carrier (c : Config) (k : Nat) : (carrier c k).length = k * cycOne c := by
  rw [carrier, length_rep, length_cycle, cycOne]

/-- TXCC and TXC of the same number of cycles have the same sequence (rule R112). -/
theorem seq_txcc_eq_seq_txc {n : BitVec 16} (h : c.carrierCps * n.toNat < 2 ^ 24) :
    seq c (.txcc (BitVec.ofNat 24 (c.carrierCps * n.toNat))) = seq c (.txc n) := by
  rw [seq, seq, BitVec.toNat_ofNat, Nat.mod_eq_of_lt h]

/-! ## The four transmit transactions -/

/-- Settles O17: the start of a frame from an idle engine, and the rule's bytes computed. -/
theorem transmitByte : Obligations.TransmitByte := by
  refine ⟨fun w => (txb_match_iff w).symm, fun w => decodeTxc_of_txb, fun b s hl hi => ?_,
    by decide, by decide, by decide, by decide, by decide, length_frameSamples_default 0x41⟩
  exact ⟨exec_txb_of_idle hl hi b, statusWord_setTx_busy rfl s, txRest_startFrame hl b⟩

/-- Settles O18: the product fits tx_left, so the count is zero exactly when CPS × SECONDS is. -/
theorem transmitCarrierSeconds : Obligations.TransmitCarrierSeconds := by
  refine ⟨fun w => (txc_match_iff w).symm, fun w => decodeTxc_of_txc, fun n s hl hi => ?_, by decide, by decide,
    length_carrier _ _⟩
  have hk : s.cfg.carrierCps * n.toNat < 2 ^ 32 := toNat_secondsCount hl n ▸ BitVec.isLt _
  have hexec := exec_txc_of_idle hl hi n
  rw [secondsCount_eq hl] at hexec
  refine ⟨hk, fun h0 => ?_, fun h0 => ?_⟩
  · rw [hexec, h0]
    exact congrArg Host.Outcome.next startCarrier_zero
  · rw [startCarrier_ofNat hk h0] at hexec
    exact ⟨hexec, statusWord_setTx_busy rfl s, txRest_startCarrier hk h0 _⟩

/-- Settles O19: CYCLES fits tx_left, so the count is zero exactly when CYCLES is. -/
theorem transmitCarrierCycles : Obligations.TransmitCarrierCycles := by
  refine ⟨fun w => (txcc_match_iff w).symm, fun w => decodeTxc_of_txcc, fun n s hl hi => ?_,
    fun c n h => seq_txcc_eq_seq_txc h, by decide⟩
  have hexec := exec_txcc_of_idle hl hi n
  refine ⟨?_, fun h0 => ?_⟩
  · rintro rfl
    exact hexec.trans (congrArg Host.Outcome.next startCarrier_zero)
  · have hk : n.toNat < 2 ^ 32 := by omega
    have h0 : n.toNat ≠ 0 := Nat.one_le_iff_ne_zero.mp (one_le_toNat_of_ne_zero h0)
    rw [cyclesCount_eq, startCarrier_ofNat hk h0] at hexec
    exact ⟨hexec, statusWord_setTx_busy rfl s, txRest_startCarrier hk h0 _⟩

/-- Settles O20: a reserved word raises ERR_TXC through the gate of an idle engine. -/
theorem reservedTransmitWord : Obligations.ReservedTransmitWord := by
  refine ⟨decodeTxc_illegal_iff_fields, fun w s hl hi => exec_illegalTxc_of_idle hl hi w, fun c w => rfl,
    by decide, by decide, _, exec_illegalTxc_of_idle (s := State.reset) default_legal rfl 0x40000000, by decide⟩

end Sys2Proof.Machine
end

section
/-!
PROOFS. The receive transactions (41_rx_decode.md rules R141, R142, R150 to R152): what RXS, RXE and a reserved word leave of
a state that is not stalled, and the window that a constant input fills.
-/

namespace Sys2Proof.Machine

variable {s : State} {c : Config}

/-! ## An engine that is not stalled takes a word (rule R140) -/

theorem exec_rxs_of_ready (hl : legal s.cfg = true) (hr : rxStall s = false) (v : Byte) :
    exec (.rxs v) s = .next ((s.setRx (rxTake s.cfg v s.rx).1).setRxOut (s.rxOut ++ (rxTake s.cfg v s.rx).2.toList)) :=
  (exec_rxs v s).trans (onRxi_of_ready hl hr)

theorem exec_rxe_of_ready (hl : legal s.cfg = true) (hr : rxStall s = false) :
    exec .rxe s = .next (s.setRx (RxEngine.reset s.cfg.framesPerBit)) :=
  (exec_rxe s).trans (onRxi_of_ready hl hr)

theorem exec_illegalRxi_of_ready (hl : legal s.cfg = true) (hr : rxStall s = false) (w : RxiWord) :
    exec (.illegalRxi w) s = .next (s.setErrRxi true) :=
  (exec_illegalRxi w s).trans (onRxi_of_ready hl hr)

theorem rxStall_of_fill (h : s.rx.state = .fill) : rxStall s = false := by
  rw [Bool.eq_false_iff, ne_eq, rxStall_iff, h]
  exact nofun

/-- RX_STATE, bits 2 and 3, is all of STATUS that stands for a receive field; rx_out is kept (rules R41, R151). -/
theorem getLsbD_statusWord_setRx_reset (s : State) (n k : Nat) :
    (statusWord (s.setRx (RxEngine.reset n))).getLsbD k
      = if k = 2 ∨ k = 3 then false else (statusWord s).getLsbD k := by
  rw [getLsbD_statusWord, getLsbD_statusWord]
  by_cases hk : k = 2 ∨ k = 3
  · rw [if_pos hk]
    obtain rfl | rfl := hk <;> simp [RxEngine.reset, rxStateCode]
  · have hcode : (decide (2 ≤ k) && (rxStateCode s.rx.state).getLsbD (k - 2)) = false := by
      cases hle : decide (2 ≤ k) with
      | false => rfl
      | true =>
        have := of_decide_eq_true hle
        exact BitVec.getLsbD_of_ge _ _ (by omega)
    rw [if_neg hk, hcode]
    simp [rxoValid, RxEngine.reset, rxStateCode]

/-! ## The edge detector (rules R30, R141) -/

/-- The synchronizer leaves the edge detector's field alone, whatever its state. -/
theorem rxDispatch_prev (c : Config) (e : Bool) (r : RxEngine) : (rxDispatch c e r).1.prev = r.prev := by
  cases hst : r.state with
  | fill => simp only [rxDispatch, hst, rxFillStep]
  | seek =>
    simp only [rxDispatch, hst]
    obtain h | h := rxSeekStep_cases c e r <;> rw [h]
  | sample =>
    simp only [rxDispatch, hst]
    obtain ⟨-, h⟩ | ⟨-, -, h⟩ | ⟨-, -, h⟩ := rxSampleStep_cases c e r <;> rw [h]
  | skip =>
    simp only [rxDispatch, hst]
    obtain ⟨-, h⟩ | ⟨-, h⟩ := rxSkipStep_cases c r <;> rw [h]

theorem rxTake_prev (c : Config) (v : Byte) (r : RxEngine) : (rxTake c v r).1.prev = v.getLsbD 7 :=
  rxDispatch_prev c _ _

/-- The receive engine sees bit 7 of a sample and nothing else (rule R150). -/
theorem rxTake_congr_bit7 {v v' : Byte} (h : v.getLsbD 7 = v'.getLsbD 7) (c : Config) (r : RxEngine) :
    rxTake c v r = rxTake c v' r := by
  rw [rxTake, rxTake, edge, edge, h]

theorem exec_rxs_congr_bit7 {v v' : Byte} (h : v.getLsbD 7 = v'.getLsbD 7) (s : State) :
    exec (.rxs v) s = exec (.rxs v') s := by
  rw [exec_rxs, exec_rxs]
  exact congrArg (onRxi · s) (funext fun s => by rw [rxTake_congr_bit7 h])

/-! ## A constant input from reset (rule R142) -/

/-- The receive engine after the first `m` of at most N samples `v`: at most the first sign-change bit is 1, and it stands in
cell 0. -/
def constantFill (c : Config) (v : Byte) (m : Nat) : RxEngine :=
  { RxEngine.reset c.framesPerBit with
    prev := v.getLsbD 7
    state := if m = c.framesPerBit then .seek else .fill
    win := v.getLsbD 7 :: List.replicate (c.framesPerBit - 1) false
    wptr := BitVec.ofNat 16 (m % c.framesPerBit)
    fill := BitVec.ofNat 17 m
    sum := BitVec.ofNat 17 (v.getLsbD 7).toNat }

theorem takeAll_append (c : Config) (r : RxEngine) (vs ws : List Byte) :
    takeAll c r (vs ++ ws) = takeAll c (takeAll c r vs) ws := by
  induction vs generalizing r with
  | nil => rfl
  | cons v vs ih => exact ih _

theorem takeAll_replicate_succ (c : Config) (r : RxEngine) (v : Byte) (m : Nat) :
    takeAll c r (List.replicate (m + 1) v) = (rxTake c v (takeAll c r (List.replicate m v))).1 := by
  rw [List.replicate_succ', takeAll_append]
  rfl

theorem rxTake_of_fill {r : RxEngine} (h : r.state = .fill) (v : Byte) :
    rxTake c v r = (rxFillStep c (edge v r.prev) { r with prev := v.getLsbD 7 }, none) := by
  simp only [rxTake, rxDispatch, h]

theorem rxTake_of_seek {r : RxEngine} (h : r.state = .seek) (v : Byte) :
    rxTake c v r = (rxSeekStep c (edge v r.prev) { r with prev := v.getLsbD 7 }, none) := by
  simp only [rxTake, rxDispatch, h]

theorem rxTake_of_sample {r : RxEngine} (h : r.state = .sample) (v : Byte) :
    rxTake c v r = rxSampleStep c (edge v r.prev) { r with prev := v.getLsbD 7 } := by
  simp only [rxTake, rxDispatch, h]

theorem rxTake_of_skip {r : RxEngine} (h : r.state = .skip) (v : Byte) :
    rxTake c v r = (rxSkipStep c { r with prev := v.getLsbD 7 }, none) := by
  simp only [rxTake, rxDispatch, h]

/-- The first sample is a sign change if its bit 7 is 1. -/
theorem rxTake_reset (hl : legal c = true) (v : Byte) :
    (rxTake c v (RxEngine.reset c.framesPerBit)).1 = constantFill c v 1 := by
  obtain ⟨n, hn⟩ := Nat.exists_eq_add_of_le' (framesPerBit_bounds hl).1
  rw [rxTake_of_fill rfl]
  simp [rxFillStep, constantFill, RxEngine.reset, nextPtr, edge, hn, List.replicate_succ]

/-- A 0 bit into a cell beyond the first leaves the window a constant input fills as it is. -/
theorem set_false_of_pos (b : Bool) (n : Nat) {m : Nat} (h0 : 1 ≤ m) :
    (b :: List.replicate n false).set m false = b :: List.replicate n false := by
  obtain ⟨k, rfl⟩ := Nat.exists_eq_add_of_le' h0
  rw [List.set_cons_succ, List.set_replicate_self]

theorem toNat_sum_constantFill (c : Config) (v : Byte) (m : Nat) :
    (constantFill c v m).sum.toNat = (v.getLsbD 7).toNat := by
  have := (v.getLsbD 7).toNat_lt
  rw [constantFill, BitVec.toNat_ofNat, Nat.mod_eq_of_lt (by omega)]

/-- Every later sample brings a 0 bit into a cell that holds 0. -/
theorem rxTake_constantFill (hl : legal c = true) (v : Byte) {m : Nat} (h0 : 1 ≤ m) (hm : m < c.framesPerBit) :
    (rxTake c v (constantFill c v m)).1 = constantFill c v (m + 1) := by
  have hN := framesPerBit_bounds hl
  have hptr : (constantFill c v m).wptr.toNat = m := by
    rw [constantFill, BitVec.toNat_ofNat, Nat.mod_eq_of_lt hm, Nat.mod_eq_of_lt (by omega)]
  have hfill : (constantFill c v m).fill.toNat = m := by
    rw [constantFill, BitVec.toNat_ofNat, Nat.mod_eq_of_lt (by omega)]
  have hstate : (constantFill c v m).state = .fill := if_neg hm.ne
  have hedge : edge v (constantFill c v m).prev = false := Bool.xor_self _
  rw [rxTake_of_fill hstate, rxFillStep, nextPtr, hedge, hptr, hfill, hstate, toNat_sum_constantFill]
  simp [constantFill, set_false_of_pos _ _ h0]

/-- Up to N samples of a constant input fill the window, at most its first bit being 1. -/
theorem takeAll_constant (hl : legal c = true) (v : Byte) {m : Nat} (h0 : 1 ≤ m) (hm : m ≤ c.framesPerBit) :
    takeAll c (RxEngine.reset c.framesPerBit) (List.replicate m v) = constantFill c v m := by
  induction m, h0 using Nat.le_induction with
  | base => exact rxTake_reset hl v
  | succ m h0 ih =>
    rw [takeAll_replicate_succ, ih (Nat.le_of_succ_le hm), rxTake_constantFill hl v h0 hm]

/-- With the window full, the next sample evicts the only bit that can be 1: a start is seen at every TS (rule R144). -/
theorem rxTake_constantFill_full (c : Config) (v : Byte) :
    (rxTake c v (constantFill c v c.framesPerBit)).1.state = .sample := by
  have hseek : (constantFill c v c.framesPerBit).state = .seek := if_pos rfl
  have hedge : edge v (constantFill c v c.framesPerBit).prev = false := Bool.xor_self _
  have hslid : slidSum false (constantFill c v c.framesPerBit) = 0 := by
    rw [slidSum, toNat_sum_constantFill]
    simp [evicted, constantFill]
  have hseen : startSeen c false { constantFill c v c.framesPerBit with prev := v.getLsbD 7 } = true :=
    decide_eq_true (hslid ▸ Nat.zero_le _)
  rw [rxTake_of_seek hseek, hedge, rxSeekStep, if_pos hseen]

theorem takeAll_constant_seek (hl : legal c = true) (v : Byte) :
    (takeAll c (RxEngine.reset c.framesPerBit) (List.replicate c.framesPerBit v)).state = .seek := by
  rw [takeAll_constant hl v (framesPerBit_bounds hl).1 (Nat.le_refl _)]
  exact if_pos rfl

theorem takeAll_constant_sample (hl : legal c = true) (v : Byte) :
    (takeAll c (RxEngine.reset c.framesPerBit) (List.replicate (c.framesPerBit + 1) v)).state = .sample := by
  rw [takeAll_replicate_succ, takeAll_constant hl v (framesPerBit_bounds hl).1 (Nat.le_refl _)]
  exact rxTake_constantFill_full c v

/-! ## The three receive transactions -/

/-- Settles O35: the synchronizer never writes rx_prev, only bit 7 reaches it, and a constant input has one sign change at
most, the one the first SEEK step evicts. -/
theorem onlyBit7OfASampleMatters : Obligations.OnlyBit7OfASampleMatters := by
  refine ⟨fun w => (rxs_match_iff w).symm, fun w => decodeRxi_of_rxs, fun v s hl hr => ?_, fun c v r => ?_,
    fun v v' s h => exec_rxs_congr_bit7 h s, fun c v hl => ⟨takeAll_constant_seek hl v, takeAll_constant_sample hl v⟩,
    fun c v hl hN => ⟨?_, ?_⟩, _, exec_rxs_of_ready (s := State.reset) default_legal (rxStall_of_fill rfl) 0xC0, by decide⟩
  · exact ⟨_, _, exec_rxs_of_ready hl hr v, rxTake_prev _ _ _, Option.length_toList_le⟩
  · exact ⟨fun h => rxTake_of_fill h v, fun h => rxTake_of_seek h v, fun h => rxTake_of_sample h v,
      fun h => rxTake_of_skip h v⟩
  · simpa [hN] using takeAll_constant_seek hl v
  · rw [skipLen, hN]

/-- Settles O36: RXE resets the receive engine through the gate, and RX_STATE is all of STATUS that stands for it. -/
theorem endOfStream : Obligations.EndOfStream := by
  refine ⟨fun w => (decodeRxi_rxe_iff w).trans (rxe_match_iff_eq w), fun s hl hr => ⟨exec_rxe_of_ready hl hr, ?_⟩,
    fun c hl => exec_rxe_of_ready (s := State.resetWith c) hl (rxStall_of_fill rfl)⟩
  exact getLsbD_statusWord_setRx_reset s _

/-- Settles O37: a reserved word raises ERR_RXI through the gate of an engine that is not stalled. -/
theorem reservedReceiveWord : Obligations.ReservedReceiveWord :=
  ⟨decodeRxi_illegal_iff_fields, fun w _ hl hr => exec_illegalRxi_of_ready hl hr w,
    by decide, by decide, by decide, by decide⟩

end Sys2Proof.Machine
end

section
/-!
PROOFS. The waveform functions (40_tx_synth.md section 1): the frame of a byte and its packed form (rule R103), and the
lengths of cycles, blocks, frames and carriers (rules R104, R105, R118).
-/

namespace Sys2Proof.Machine

/-! ## The frame of a byte (rule R103) -/

/-- One more element counted makes an odd count even and an even one odd. -/
theorem odd_length_filter_cons {α : Type} (p : α → Bool) (a : α) (l : List α) :
    (((a :: l).filter p).length % 2 == 1) = (p a ^^ ((l.filter p).length % 2 == 1)) := by
  cases hp : p a with
  | false => simp [hp]
  | true =>
    rw [List.filter_cons_of_pos hp, List.length_cons]
    rcases Nat.mod_two_eq_zero_or_one (l.filter p).length with h | h <;> simp [Nat.add_mod, h]

/-- Even parity is the exclusive or of the data bits. -/
theorem parity_eq_xor (b : Byte) : parity b = (b.getLsbD 0 ^^ b.getLsbD 1 ^^ b.getLsbD 2 ^^ b.getLsbD 3
    ^^ b.getLsbD 4 ^^ b.getLsbD 5 ^^ b.getLsbD 6 ^^ b.getLsbD 7) := by
  rw [parity, popcount, show List.range 8 = [0, 1, 2, 3, 4, 5, 6, 7] from rfl]
  simp only [odd_length_filter_cons, List.filter_nil, List.length_nil, Bool.xor_assoc]
  simp

theorem getLsbD_frameword (b : Byte) {i : Nat} (hi : i < 12) :
    (frameword b).getLsbD i = (frame b).getD i false := by
  rw [frame_eq_map_frameword, List.getD_eq_getElem?_getD, List.getElem?_map, List.getElem?_range (n := frameLen) hi]
  rfl

theorem frameword_eq_or (b : Byte) :
    frameword b = 0xC00#12 ||| ((BitVec.ofBool (parity b)).zeroExtend 12 <<< 9) ||| (b.zeroExtend 12 <<< 1) := by
  refine BitVec.eq_of_getLsbD_eq fun i hi => ?_
  rw [getLsbD_frameword b hi]
  interval_cases i <;> simp [frame]

/-- Settles O14: position i of the frame is bit i of the packed frame, and the parity of a count is an exclusive or. -/
theorem frameOfAByte : Obligations.FrameOfAByte := by
  refine ⟨fun c b => ?_, fun b => ⟨rfl, parity_eq_xor b, fun i => getLsbD_frameword b, frameword_eq_or b, rfl,
    fun k hk => ?_, rfl, rfl, rfl⟩⟩
  · rw [frameSamples, frame_eq_map_frameword, List.flatMap_map]
    rfl
  · interval_cases k <;> rfl

/-! ## Lengths (rules R104, R105, R118) -/

theorem length_block_one (c : Config) : (block c true).length = blkOne c :=
  (length_rep _ _).trans (congrArg _ (length_cycle c _))

theorem length_block_zero (c : Config) : (block c false).length = blkZero c :=
  (length_rep _ _).trans (congrArg _ (length_cycle c _))

/-- Each bit of a list adds the length of its own block. -/
theorem length_flatMap_block (c : Config) (bits : List Bool) :
    (bits.flatMap (block c)).length = bits.count true * blkOne c + bits.count false * blkZero c := by
  induction bits with
  | nil => simp
  | cons bit bits ih =>
    rw [List.flatMap_cons, List.length_append, ih]
    cases bit with
    | false =>
      rw [length_block_zero, List.count_cons_self, List.count_cons_of_ne (by decide)]
      ring
    | true =>
      rw [length_block_one, List.count_cons_self, List.count_cons_of_ne (by decide)]
      ring

/-- Settles O15: the blocks of a frame by their bits, and a carrier by its cycles. -/
theorem waveformLengths : Obligations.WaveformLengths := by
  refine ⟨fun c b => ⟨List.flatMap_def, length_flatMap_block c (frame b), List.count_true_add_count_false (frame b)⟩,
    fun c k => ⟨rfl, length_carrier c k⟩, length_frameSamples_default, fun n => ?_⟩
  rw [length_carrier]
  show 2400 * n * 4 = n * 9600
  omega

theorem blkOne_eq_blkZero_iff (c : Config) :
    blkOne c = blkZero c ↔ c.oneRepeat * halfOne c = c.zeroRepeat * halfZero c := by
  rw [blkOne, blkZero, cycOne, cycZero, Nat.mul_left_comm, Nat.mul_left_comm c.zeroRepeat]
  exact Nat.mul_right_inj (by decide)

theorem length_cycle_eq_floor (c : Config) (freq : Nat) :
    (cycle c (c.sampleRate / (2 * freq))).length = c.sampleRate / freq / 2 * 2 := by
  rw [length_cycle, div_two_mul_eq_div_div_two, Nat.mul_comm]

/-- Settles O16: a cycle is two halves, a block its cycles, and the factor 2 cancels. -/
theorem lengthLaws : Obligations.LengthLaws := by
  refine ⟨fun c => ⟨length_cycle_eq_floor c _, length_cycle_eq_floor c _, length_block_one c, length_block_zero c,
    blkOne_eq_blkZero_iff c⟩, by decide⟩

end Sys2Proof.Machine
end

section
/-!
PROOFS. The transmit engine as a queue of samples (40_tx_synth.md rules R106, R115, R116): the branches of the delivery
step, and that every delivery takes the head of what is left to deliver.
-/

namespace Sys2Proof.Machine

variable {c : Config} {s : State} {x : TxEngine}

/-! ## The branches of rule R115 -/

theorem txTone_eq (x : TxEngine) : txTone x = (decide (x.mode = .carrier) || x.frame.getLsbD x.bit.toNat) := by
  cases hm : x.mode <;> simp [txTone, hm]

theorem txSample_eq (c : Config) (x : TxEngine) : txSample c x = if x.ph = false then low c else high c := by
  cases hp : x.ph <;> simp [txSample, hp]

theorem ofNat_toNat_succ {w : Nat} (v : BitVec w) : BitVec.ofNat w (v.toNat + 1) = v + 1 := by
  rw [BitVec.ofNat_add, BitVec.ofNat_toNat, BitVec.setWidth_eq]
  rfl

theorem ofNat_toNat_pred {v : BitVec 32} (hv : v ≠ 0) : BitVec.ofNat 32 (v.toNat - 1) = v - 1 := by
  have h1 := one_le_toNat_of_ne_zero hv
  bv_omega

theorem txAdvance_count (h : x.cnt.toNat + 1 < txHalf c x) : txAdvance c x = { x with cnt := x.cnt + 1 } := by
  rw [txAdvance, if_pos h, ofNat_toNat_succ]

theorem txAdvance_half (h : txHalf c x ≤ x.cnt.toNat + 1) (hp : x.ph = false) :
    txAdvance c x = { x with cnt := 0, ph := true } := by
  rw [txAdvance, if_neg (Nat.not_lt.mpr h), if_pos hp]

theorem txAdvance_carrier (h : txHalf c x ≤ x.cnt.toNat + 1) (hp : x.ph = true) (hm : x.mode = .carrier) :
    txAdvance c x = txEndCarrierCycle x := by
  simp [txAdvance, Nat.not_lt.mpr h, hp, hm]

theorem txAdvance_frame (h : txHalf c x ≤ x.cnt.toNat + 1) (hp : x.ph = true) (hm : x.mode = .frame) :
    txAdvance c x = txEndFrameCycle c x := by
  simp [txAdvance, Nat.not_lt.mpr h, hp, hm]

theorem txEndCarrierCycle_last (h : x.left = 1) : txEndCarrierCycle x = TxEngine.reset := if_pos h

theorem txEndCarrierCycle_next (h : x.left ≠ 1) (h0 : x.left ≠ 0) :
    txEndCarrierCycle x = { x with cnt := 0, ph := false, left := x.left - 1 } := by
  rw [txEndCarrierCycle, if_neg h, ofNat_toNat_pred h0]

theorem txEndFrameCycle_cycle (h : x.cyc.toNat + 1 < txRepeat c x) :
    txEndFrameCycle c x = { x with cnt := 0, ph := false, cyc := x.cyc + 1 } := by
  rw [txEndFrameCycle, if_pos h, ofNat_toNat_succ]

theorem txEndFrameCycle_last (h : txRepeat c x ≤ x.cyc.toNat + 1) (hb : x.bit = 11) :
    txEndFrameCycle c x = TxEngine.reset := by
  rw [txEndFrameCycle, if_neg (Nat.not_lt.mpr h), if_pos hb]

theorem txEndFrameCycle_bit (h : txRepeat c x ≤ x.cyc.toNat + 1) (hb : x.bit ≠ 11) :
    txEndFrameCycle c x = { x with cnt := 0, ph := false, cyc := 0, bit := x.bit + 1 } := by
  rw [txEndFrameCycle, if_neg (Nat.not_lt.mpr h), if_neg hb, ofNat_toNat_succ]

/-- A `txs` turn runs the delivery step (rule R115). -/
theorem step_txs {us : List Turn} (hl : legal s.cfg = true) (hr : s.rst = false) (hu : s.turns = .txs :: us) :
    step s = .next (txsDeliver (s.setTurns us)) :=
  (step_of_turn hl hu).trans (deliver_of_released hr)

/-- Settles O23: the delivery step is the branch of rule R115 that the engine stands in. -/
theorem deliveryStep : Obligations.DeliveryStep := by
  intro s us hl hr hu hi one h r goesTo
  have hone : txTone s.tx = one := txTone_eq s.tx
  have hhalf : txHalf s.cfg s.tx = h := by rw [txHalf, hone]
  have hrep : txRepeat s.cfg s.tx = r := by rw [txRepeat, hone]
  have hgo : ∀ x, s.tx.busy = true → txAdvance s.cfg s.tx = x → goesTo x := by
    rintro x hb rfl
    refine (step_txs hl hr hu).trans ((congrArg _ (txsDeliver_of_busy (s := s.setTurns us) hb)).trans ?_)
    rw [show txSample (s.setTurns us).cfg (s.setTurns us).tx = if s.tx.ph = false then low s.cfg else high s.cfg from
      txSample_eq _ _]
    rfl
  rw [← hhalf, ← hrep]
  refine ⟨fun hb => ?_, fun hb hc => hgo _ hb (txAdvance_count hc),
    fun hb hc hp => hgo _ hb (txAdvance_half hc hp), fun hb hc hp hm => ⟨fun h1 => ?_, fun h1 => ?_⟩,
    fun hb hc hp hm => ⟨fun hcyc => ?_, fun hcyc h11 => ?_, fun hcyc h11 => ?_⟩⟩
  · exact (step_txs hl hr hu).trans (congrArg _ (txsDeliver_of_idle (s := s.setTurns us) hb))
  · exact hgo _ hb ((txAdvance_carrier hc hp hm).trans (txEndCarrierCycle_last h1))
  · obtain ⟨-, -, hleft, -⟩ := hi
    have h0 : s.tx.left ≠ 0 := fun h0 => by simpa [h0] using hleft hb hm
    exact hgo _ hb ((txAdvance_carrier hc hp hm).trans (txEndCarrierCycle_next h1 h0))
  · exact hgo _ hb ((txAdvance_frame hc hp hm).trans (txEndFrameCycle_cycle hcyc))
  · exact hgo _ hb ((txAdvance_frame hc hp hm).trans (txEndFrameCycle_last hcyc h11))
  · exact hgo _ hb ((txAdvance_frame hc hp hm).trans (txEndFrameCycle_bit hcyc h11))

/-! ## What is left to deliver (rule R106) -/

theorem tx_eq_reset_of_idle (hi : TxInv c x) (hb : x.busy = false) : x = TxEngine.reset := hi.1 hb

/-- The samples left after the cycle a busy engine stands in. -/
def txAfterCycle (c : Config) (x : TxEngine) : List Byte :=
  match x.mode with
  | .carrier => carrier c (x.left.toNat - 1)
  | .frame => rep (txRepeat c x - 1 - x.cyc.toNat) (cycle c (txHalf c x)) ++ blocksFrom c x.frame (x.bit.toNat + 1)

theorem txAfterCycle_carrier (hm : x.mode = .carrier) : txAfterCycle c x = carrier c (x.left.toNat - 1) := by
  rw [txAfterCycle, hm]

theorem txAfterCycle_frame (hm : x.mode = .frame) : txAfterCycle c x =
    rep (txRepeat c x - 1 - x.cyc.toNat) (cycle c (txHalf c x)) ++ blocksFrom c x.frame (x.bit.toNat + 1) := by
  rw [txAfterCycle, hm]

theorem txRest_of_idle (hb : x.busy = false) : txRest c x = [] := by
  rw [txRest, if_neg (Bool.eq_false_iff.mp hb)]

theorem txRest_of_busy (hb : x.busy = true) :
    txRest c x = txRestOfCycle c (txHalf c x) x ++ txAfterCycle c x := by
  cases hm : x.mode with
  | carrier => simp [txRest, txHalf, txTone, txAfterCycle, hb, hm]
  | frame =>
    cases ht : x.frame.getLsbD x.bit.toNat <;>
      simp [txRest, txHalf, txRepeat, txTone, txAfterCycle, hb, hm, ht, -BitVec.getLsbD_eq_getElem]

/-- At the start of a cycle the whole cycle is left, then what comes after it. -/
theorem txRest_cycle_start (hb : x.busy = true) (hp : x.ph = false) (hc : x.cnt = 0) :
    txRest c x = cycle c (txHalf c x) ++ txAfterCycle c x := by
  rw [txRest_of_busy hb, txRestOfCycle_start hp hc]

theorem rep_sub_succ {α : Type} {h k : Nat} (hk : k < h) (a : α) : rep (h - k) [a] = a :: rep (h - (k + 1)) [a] := by
  rw [show h - k = h - (k + 1) + 1 by omega, rep_succ]
  rfl

/-- The block of the current bit is its tone's cycles (rules R102, R115). -/
theorem block_txTone (c : Config) (x : TxEngine) :
    block c (txTone x) = rep (txRepeat c x) (cycle c (txHalf c x)) := by
  cases h : txTone x <;> simp [block, txRepeat, txHalf, h]

theorem blocksFrom_cons (c : Config) (f : BitVec 12) {k : Nat} (hk : k < 12) :
    blocksFrom c f k = block c (f.getLsbD k) ++ blocksFrom c f (k + 1) := by
  rw [blocksFrom, blocksFrom, show frameLen - k = frameLen - (k + 1) + 1 by rw [frameLen]; omega,
    List.range'_succ, List.flatMap_cons]

/-- At the start of a carrier cycle the carrier of the cycles still to send is left. -/
theorem txRest_carrier_start (hb : x.busy = true) (hm : x.mode = .carrier) (hp : x.ph = false) (hc : x.cnt = 0)
    (hleft : 1 ≤ x.left.toNat) : txRest c x = carrier c x.left.toNat := by
  have hhalf : txHalf c x = halfOne c := by rw [txHalf, txTone, hm, if_pos rfl]
  rw [txRest_cycle_start hb hp hc, txAfterCycle_carrier hm, hhalf]
  exact append_rep_pred hleft _

/-- At the start of a cycle of a bit block the block's remaining cycles are left, then the blocks after it. -/
theorem txRest_frame_start (hb : x.busy = true) (hm : x.mode = .frame) (hp : x.ph = false) (hc : x.cnt = 0)
    (hcyc : x.cyc.toNat < txRepeat c x) : txRest c x =
      rep (txRepeat c x - x.cyc.toNat) (cycle c (txHalf c x)) ++ blocksFrom c x.frame (x.bit.toNat + 1) := by
  rw [txRest_cycle_start hb hp hc, txAfterCycle_frame hm, ← List.append_assoc,
    show txRepeat c x - 1 - x.cyc.toNat = txRepeat c x - x.cyc.toNat - 1 by omega, append_rep_pred (by omega)]

/-- At the start of a bit block the blocks from that bit on are left. -/
theorem txRest_block_start (hl : legal c = true) (hb : x.busy = true) (hm : x.mode = .frame) (hp : x.ph = false)
    (hc : x.cnt = 0) (hcyc : x.cyc = 0) (hbit : x.bit.toNat < 12) :
    txRest c x = blocksFrom c x.frame x.bit.toNat := by
  have htone : txTone x = x.frame.getLsbD x.bit.toNat := by rw [txTone, hm]
  have hcyc0 : x.cyc.toNat = 0 := by rw [hcyc]; rfl
  rw [txRest_frame_start hb hm hp hc (hcyc0 ▸ (txRepeat_bounds hl x).1), hcyc0, Nat.sub_zero, ← block_txTone, htone,
    ← blocksFrom_cons c _ hbit]

/-- At the end of a carrier cycle the engine holds what comes after it. -/
theorem txRest_endCarrierCycle (hb : x.busy = true) (hm : x.mode = .carrier) (hi : TxInv c x) :
    txRest c (txEndCarrierCycle x) = txAfterCycle c x := by
  obtain ⟨-, -, hleft, -⟩ := hi
  have hpos := hleft hb hm
  rw [txAfterCycle_carrier hm]
  by_cases hlast : x.left = 1
  · rw [txEndCarrierCycle_last hlast, hlast]
    rfl
  · have hpred : (x.left - 1).toNat = x.left.toNat - 1 := by bv_omega
    rw [txEndCarrierCycle_next hlast (by bv_omega), ← hpred]
    exact txRest_carrier_start hb hm rfl rfl (by bv_omega)

/-- At the end of a cycle of a bit block the engine holds what comes after it. -/
theorem txRest_endFrameCycle (hl : legal c = true) (hb : x.busy = true) (hm : x.mode = .frame) (hi : TxInv c x) :
    txRest c (txEndFrameCycle c x) = txAfterCycle c x := by
  obtain ⟨-, hbits, -, hcounts⟩ := hi
  obtain ⟨hbit, -⟩ := hbits hb hm
  have hrep := txRepeat_bounds hl x
  rw [txAfterCycle_frame hm]
  by_cases hnext : x.cyc.toNat + 1 < txRepeat c x
  · have hsucc : (x.cyc + 1).toNat = x.cyc.toNat + 1 := by bv_omega
    rw [txEndFrameCycle_cycle hnext,
      show txRepeat c x - 1 - x.cyc.toNat = txRepeat c x - (x.cyc + 1).toNat by omega]
    exact txRest_frame_start hb hm rfl rfl (hsucc ▸ hnext)
  · have hend := Nat.not_lt.mp hnext
    rw [show txRepeat c x - 1 - x.cyc.toNat = 0 by omega, rep_zero, List.nil_append]
    by_cases hlast : x.bit = 11
    · rw [txEndFrameCycle_last hend hlast, hlast]
      rfl
    · have hsucc : (x.bit + 1).toNat = x.bit.toNat + 1 := by bv_omega
      rw [txEndFrameCycle_bit hend hlast, ← hsucc]
      exact txRest_block_start hl hb hm rfl rfl rfl (by bv_omega)

/-- Within a half-cycle a delivery takes the head of what is left of the cycle. -/
theorem txRestOfCycle_count {h : Nat} (hlt : x.cnt.toNat < h) (hsucc : (x.cnt + 1).toNat = x.cnt.toNat + 1) :
    txRestOfCycle c h x = txSample c x :: txRestOfCycle c h { x with cnt := x.cnt + 1 } := by
  cases hp : x.ph <;>
    simp only [txRestOfCycle, txSample, hp, hsucc, rep_sub_succ hlt, Bool.false_eq_true, reduceIte, List.cons_append]

/-- The last sample of the first half of a cycle leaves the second half. -/
theorem txRestOfCycle_half {h : Nat} (hlast : h = x.cnt.toNat + 1) (hp : x.ph = false) :
    txRestOfCycle c h x = txSample c x :: txRestOfCycle c h { x with cnt := 0, ph := true } := by
  simp [txRestOfCycle, txSample, hp, rep_sub_succ (show x.cnt.toNat < h by omega), ← hlast, rep_zero]

/-- The last sample of the second half of a cycle leaves nothing of the cycle. -/
theorem txRestOfCycle_last {h : Nat} (hlast : h = x.cnt.toNat + 1) (hp : x.ph = true) :
    txRestOfCycle c h x = [txSample c x] := by
  simp [txRestOfCycle, txSample, hp, rep_sub_succ (show x.cnt.toNat < h by omega), ← hlast, rep_zero]

/-- A delivery sends the head of what is left (rules R106, R115). -/
theorem txRest_advance (hl : legal c = true) (hb : x.busy = true) (hi : TxInv c x) :
    txRest c x = txSample c x :: txRest c (txAdvance c x) := by
  have ⟨_, _, _, hcounts⟩ := hi
  obtain ⟨hcnt, -⟩ := hcounts hb
  rw [txRest_of_busy hb]
  by_cases hnext : x.cnt.toNat + 1 < txHalf c x
  · have hlt := (txHalf_bounds hl x).2
    rw [txAdvance_count hnext, txRest_of_busy (by exact hb), txRestOfCycle_count hcnt (by bv_omega)]
    rfl
  · have hend := Nat.not_lt.mp hnext
    have hlast : txHalf c x = x.cnt.toNat + 1 := by omega
    cases hp : x.ph with
    | false =>
      rw [txAdvance_half hend hp, txRest_of_busy (by exact hb), txRestOfCycle_half hlast hp]
      rfl
    | true =>
      rw [txRestOfCycle_last hlast hp]
      cases hm : x.mode with
      | carrier =>
        rw [txAdvance_carrier hend hp hm, txRest_endCarrierCycle hb hm hi]
        rfl
      | frame =>
        rw [txAdvance_frame hend hp hm, txRest_endFrameCycle hl hb hm hi]
        rfl

/-- An engine that meets the invariants is busy exactly while it has samples to deliver (rules R24, R25). -/
theorem txRest_ne_nil_iff (hl : legal c = true) (hi : TxInv c x) : txRest c x ≠ [] ↔ x.busy = true := by
  cases hb : x.busy with
  | false => simp [txRest_of_idle hb]
  | true => simp [txRest_advance hl hb hi]

end Sys2Proof.Machine
end

section
/-!
PROOFS. Commands in an idle engine (40_tx_synth.md rules R107, R116, R119): what consecutive deliveries send, the transmit
fields a command starts from, and that its samples depend on nothing else.
-/

namespace Sys2Proof.Machine

variable {c : Config} {s t : State} {i : Instr}

/-! ## Consecutive deliveries (rule R116) -/

/-- After `k` deliveries the first `k` samples of what was left have been sent, the rest is left, and the block has changed
in the transmit fields and the delivered samples alone. -/
theorem deliverN_eq (hl : legal s.cfg = true) (hi : TxInv s.cfg s.tx) (k : Nat) :
    ∃ x, deliverN k s = (s.setTx x).setTxsOut (s.txsOut ++ (txRest s.cfg s.tx).take k)
      ∧ TxInv s.cfg x ∧ txRest s.cfg x = (txRest s.cfg s.tx).drop k := by
  induction k generalizing s with
  | zero => exact ⟨s.tx, by simp [deliverN], hi, rfl⟩
  | succ k ih =>
    rw [deliverN]
    cases hb : s.tx.busy with
    | false =>
      simpa only [txsDeliver_of_idle hb, txRest_of_idle hb, List.take_nil, List.drop_nil] using ih hl hi
    | true =>
      obtain ⟨x, heq, hx, hrest⟩ := ih (s := txsDeliver s) (by rwa [txsDeliver_of_busy hb])
        (by rw [txsDeliver_of_busy hb]; exact txInv_advance hl hb hi)
      rw [txsDeliver_of_busy hb] at heq hx hrest
      rw [txsDeliver_of_busy hb, txRest_advance hl hb hi]
      refine ⟨x, ?_, hx, hrest⟩
      rw [heq, setTxsOut_txsOut, List.append_assoc]
      rfl

/-- Consecutive deliveries keep the engine busy exactly until nothing is left. -/
theorem deliverN_spec (hl : legal s.cfg = true) (hi : TxInv s.cfg s.tx) (k : Nat) :
    (deliverN k s).txsOut = s.txsOut ++ (txRest s.cfg s.tx).take k
      ∧ ((deliverN k s).tx.busy = true ↔ k < (txRest s.cfg s.tx).length) := by
  obtain ⟨x, heq, hx, hrest⟩ := deliverN_eq hl hi k
  rw [heq]
  refine ⟨rfl, ?_⟩
  rw [setTxsOut_tx, setTx_tx, ← txRest_ne_nil_iff hl hx, hrest, ne_eq, List.drop_eq_nil_iff, Nat.not_le]

/-- Once all that was left has been delivered the engine is idle, and nothing else of the block has changed. -/
theorem deliverN_all (hl : legal s.cfg = true) (hi : TxInv s.cfg s.tx) :
    deliverN (txRest s.cfg s.tx).length s = (s.setTx TxEngine.reset).setTxsOut (s.txsOut ++ txRest s.cfg s.tx) := by
  obtain ⟨x, heq, hx, hrest⟩ := deliverN_eq hl hi (txRest s.cfg s.tx).length
  rw [List.drop_length] at hrest
  have hidle : x.busy = false := Bool.eq_false_iff.mpr fun hb => (txRest_ne_nil_iff hl hx).mpr hb hrest
  rw [heq, tx_eq_reset_of_idle hx hidle, List.take_length]

/-! ## A command in an idle engine (rules R107, R110 to R113) -/

/-- The transmit fields once an idle engine has accepted a carrier command of `n` cycles. -/
def carrierStart (n : BitVec 32) : TxEngine := if n = 0 then TxEngine.reset else txStartCarrier n

theorem carrierStart_zero : carrierStart 0 = TxEngine.reset := rfl

theorem carrierStart_pos {n : BitVec 32} (hn : n ≠ 0) : carrierStart n = txStartCarrier n := if_neg hn

/-- The transmit fields once an idle engine has accepted a command; a zero count and a reserved word leave it idle. -/
def txStart (c : Config) : Instr → TxEngine
  | .txb b => txStartFrame b
  | .txc n => carrierStart (secondsCount c n)
  | .txcc n => carrierStart (cyclesCount n)
  | .illegalTxc _ | .rxs _ | .rxe | .illegalRxi _ | .csrr _ _ | .csrw _ _ => TxEngine.reset

theorem startCarrier_of_idle (hx : s.tx = TxEngine.reset) (n : BitVec 32) :
    startCarrier n s = s.setTx (carrierStart n) := by
  by_cases hn : n = 0
  · rw [hn, startCarrier_zero, carrierStart_zero, ← hx, setTx_self]
  · rw [startCarrier_pos hn, carrierStart_pos hn]

/-- A command, which is no reserved word, writes the transmit fields of an idle engine and nothing else. -/
theorem exec_of_idle (hl : legal s.cfg = true) (hx : s.tx = TxEngine.reset) (hp : i.port = .txc)
    (hw : ∀ w, i ≠ .illegalTxc w) : exec i s = .next (s.setTx (txStart s.cfg i)) := by
  have hb : s.tx.busy = false := by rw [hx]; rfl
  cases i with
  | txb b => exact exec_txb_of_idle hl hb b
  | txc n => rw [exec_txc_of_idle hl hb, startCarrier_of_idle hx, txStart]
  | txcc n => rw [exec_txcc_of_idle hl hb, startCarrier_of_idle hx, txStart]
  | illegalTxc w => exact absurd rfl (hw w)
  | rxs | rxe | illegalRxi | csrr | csrw => cases hp

/-- Everything a transmit transaction does to an idle engine: the command's start, and ERR_TXC may be raised. -/
theorem exec_idle_next (hx : s.tx = TxEngine.reset) (hp : i.port = .txc) (h : exec i s = .next t) :
    ∃ e, t = (s.setTx (txStart s.cfg i)).setErrTxc e := by
  have hl : legal s.cfg = true := Bool.of_not_eq_false fun hl => by simp [exec_of_illegal hl] at h
  have hb : s.tx.busy = false := by rw [hx]; rfl
  by_cases hw : ∃ w, i = .illegalTxc w
  · obtain ⟨w, rfl⟩ := hw
    rw [exec_illegalTxc_of_idle hl hb] at h
    cases h
    exact ⟨true, by rw [txStart, ← hx]; rfl⟩
  · rw [exec_of_idle hl hx hp (not_exists.mp hw)] at h
    cases h
    exact ⟨s.errTxc, rfl⟩

theorem txInv_carrierStart (hl : legal c = true) (n : BitVec 32) : TxInv c (carrierStart n) := by
  by_cases hn : n = 0
  · exact hn ▸ txInv_reset c
  · exact carrierStart_pos hn ▸ txInv_startCarrier hl hn

theorem txInv_txStart (hl : legal c = true) (i : Instr) : TxInv c (txStart c i) := by
  cases i with
  | txb b => exact txInv_startFrame hl b
  | txc n => exact txInv_carrierStart hl _
  | txcc n => exact txInv_carrierStart hl _
  | illegalTxc | rxs | rxe | illegalRxi | csrr | csrw => exact txInv_reset c

/-- A carrier command leaves its carrier to deliver, none where the count is zero (decision D33). -/
theorem txRest_carrierStart (c : Config) (n : BitVec 32) : txRest c (carrierStart n) = carrier c n.toNat := by
  by_cases hn : n = 0
  · rw [hn]
    rfl
  · rw [carrierStart_pos hn]
    exact txRest_carrier_start rfl rfl rfl rfl (one_le_toNat_of_ne_zero hn)

/-- A command accepted by an idle engine leaves exactly its sequence to deliver (rule R106). -/
theorem txRest_txStart (hl : legal c = true) (i : Instr) : txRest c (txStart c i) = seq c i := by
  cases i with
  | txb b => exact txRest_startFrame hl b
  | txc n => rw [txStart, txRest_carrierStart, toNat_secondsCount hl, seq]
  | txcc n => rw [txStart, txRest_carrierStart, cyclesCount_eq, BitVec.toNat_ofNat, Nat.mod_eq_of_lt (by omega), seq]
  | illegalTxc | rxs | rxe | illegalRxi | csrr | csrw => rfl

/-- A command accepted by an idle engine: deliveries send its sequence in order, the engine busy until the last. -/
theorem deliverN_of_exec (hl : legal s.cfg = true) (hx : s.tx = TxEngine.reset) (hp : i.port = .txc)
    (h : exec i s = .next t) (k : Nat) : (deliverN k t).txsOut = s.txsOut ++ (seq s.cfg i).take k
      ∧ ((deliverN k t).tx.busy = true ↔ k < (seq s.cfg i).length) := by
  obtain ⟨e, rfl⟩ := exec_idle_next hx hp h
  rw [← txRest_txStart hl i]
  exact deliverN_spec (s := (s.setTx (txStart s.cfg i)).setErrTxc e) hl (txInv_txStart hl i) k

/-- Settles O27: the command's start and its sequence are functions of the command and the parameters, and deliveries take
the sequence in order. -/
theorem commandsArePure : Obligations.CommandsArePure := by
  intro i s s' t t' hp hl hcfg hi hi' hb hb' h h'
  have hx := tx_eq_reset_of_idle hi hb
  have hx' := tx_eq_reset_of_idle hi' hb'
  refine ⟨?_, fun n => ⟨(seq s.cfg i).take n, (deliverN_of_exec hl hx hp h n).1,
    hcfg ▸ (deliverN_of_exec (hcfg ▸ hl) hx' hp h' n).1⟩⟩
  obtain ⟨e, rfl⟩ := exec_idle_next hx hp h
  obtain ⟨e', rfl⟩ := exec_idle_next hx' hp h'
  exact congrArg (txStart · i) hcfg.symm

end Sys2Proof.Machine
end

section
/-!
PROOFS. The transmit stream over a run (40_tx_synth.md rules R106, R116): a turn moves a sample from what is left to what
has been delivered, or appends the sequence of an accepted word, or leaves both alone.
-/

namespace Sys2Proof.Machine

variable {s t u : State} {i : Instr} {p : InPort} {ws : List TxcWord}

/-! ## What a turn leaves of the host's side -/

/-- Two states that agree in what the host offers to txc and csr, in the samples it has been given, and in the turns. -/
structure SameHost (s t : State) : Prop where
  txcIn : t.txcIn = s.txcIn
  csrIn : t.csrIn = s.csrIn
  txsOut : t.txsOut = s.txsOut
  turns : t.turns = s.turns

/-- No transaction writes the host's side of txc, csr and txs, nor the turns. -/
theorem sameHost_of_exec (h : exec i s = .next t) : SameHost s t := by
  cases hp : i.port with
  | txc =>
    obtain rfl | ⟨_, -, rfl⟩ | ⟨-, _, -, rfl⟩ | ⟨_, -, rfl⟩ := exec_txc_next_cases hp h <;> exact ⟨rfl, rfl, rfl, rfl⟩
  | rxi =>
    obtain rfl | ⟨_, -, -, rfl⟩ | ⟨-, rfl⟩ | ⟨_, -, rfl⟩ := exec_rxi_next_cases hp h <;> exact ⟨rfl, rfl, rfl, rfl⟩
  | csr =>
    obtain rfl | ⟨_, _, -, rfl⟩ | ⟨d, -, rfl⟩ | ⟨d, -, rfl⟩ := exec_csr_next_cases hp h
    · exact ⟨rfl, rfl, rfl, rfl⟩
    · exact ⟨rfl, rfl, rfl, rfl⟩
    · rw [writeCtrl_eq]
      exact ⟨rfl, rfl, rfl, rfl⟩
    · rw [writeStatus_eq]
      exact ⟨rfl, rfl, rfl, rfl⟩

/-- Without a pulse of TX_RST a control-register access leaves the transmit fields alone. -/
theorem exec_csr_tx (hp : i.port = .csr) (hrst : isTxRst i = false) (h : exec i s = .next t) : t.tx = s.tx := by
  obtain rfl | ⟨_, _, -, rfl⟩ | ⟨d, rfl, rfl⟩ | ⟨d, -, rfl⟩ := exec_csr_next_cases hp h
  · rfl
  · rfl
  · rw [writeCtrl_tx, hrst]
    rfl
  · rw [writeStatus_eq]

/-! ## What a step does to the transmit stream (rule R106) -/

/-- From `s` to `t` the words `ws` have been accepted on txc, and what txs has delivered and is left to deliver has grown
by their sequences alone. -/
structure Transmits (s : State) (ws : List TxcWord) (t : State) : Prop where
  cfg : t.cfg = s.cfg
  words : s.txcIn = ws ++ t.txcIn
  delivered : s.txsOut <+: t.txsOut
  samples : t.txsOut ++ txRest t.cfg t.tx
    = s.txsOut ++ txRest s.cfg s.tx ++ ws.flatMap fun w => seq s.cfg (decode (.txc w))

theorem transmits_of_same (hcfg : t.cfg = s.cfg) (htx : t.tx = s.tx) (hin : t.txcIn = s.txcIn)
    (hout : t.txsOut = s.txsOut) : Transmits s [] t :=
  ⟨hcfg, hin.symm, hout ▸ List.prefix_rfl, by rw [hcfg, htx, hout]; exact (List.append_nil _).symm⟩

theorem Transmits.trans {ws' : List TxcWord} (h : Transmits s ws t) (h' : Transmits t ws' u) :
    Transmits s (ws ++ ws') u where
  cfg := h'.cfg.trans h.cfg
  words := by rw [h.words, h'.words, List.append_assoc]
  delivered := h.delivered.trans h'.delivered
  samples := by rw [h'.samples, h.samples, h.cfg, List.flatMap_append, List.append_assoc _ (ws.flatMap _)]

/-- A delivery moves the head of what is left to what has been delivered. -/
theorem transmits_txsDeliver (hl : legal s.cfg = true) (hi : TxInv s.cfg s.tx) : Transmits s [] (txsDeliver s) := by
  cases hb : s.tx.busy with
  | false =>
    rw [txsDeliver_of_idle hb]
    exact transmits_of_same rfl rfl rfl rfl
  | true =>
    rw [txsDeliver_of_busy hb]
    refine ⟨rfl, rfl, List.prefix_append _ _, ?_⟩
    rw [txRest_advance hl hb hi, List.flatMap_nil, List.append_nil]
    exact List.append_assoc _ _ _

theorem transmits_rxoDeliver (s : State) : Transmits s [] (rxoDeliver s) := by
  cases ho : s.rxOut with
  | nil =>
    rw [rxoDeliver_of_empty ho]
    exact transmits_of_same rfl rfl rfl rfl
  | cons b bs =>
    rw [rxoDeliver_of_cons ho]
    exact transmits_of_same rfl rfl rfl rfl

/-- A turn of txc accepts the word on offer in an idle engine, which then has its sequence to deliver, or nothing. -/
theorem transmits_txc (hl : legal s.cfg = true) (hi : TxInv s.cfg s.tx) (h : transact .txc s = .next t) :
    ∃ ws, Transmits s ws t := by
  obtain rfl | ⟨-, i, s', ha, hx⟩ := transact_next_cases h
  · exact ⟨[], transmits_of_same rfl rfl rfl rfl⟩
  obtain ⟨-, hb, w, ws, hin, rfl, rfl⟩ | ⟨hp, -⟩ | ⟨hp, -⟩ := accept_cases ha
  · obtain ⟨e, rfl⟩ := exec_idle_next (s := s.setTxcIn ws) (tx_eq_reset_of_idle hi hb) (port_decodeTxc w) hx
    refine ⟨[w], rfl, hin, List.prefix_rfl, ?_⟩
    rw [txRest_of_idle hb, List.append_nil, List.flatMap_singleton]
    exact congrArg (s.txsOut ++ ·) (txRest_txStart hl _)
  · cases hp
  · cases hp

theorem accept_keeps_txc (hp : p ≠ .txc) (h : accept p s = some (i, t)) : t.txcIn = s.txcIn ∧ t.txsOut = s.txsOut := by
  obtain ⟨rfl, -⟩ | ⟨-, -, _, _, -, -, rfl⟩ | ⟨-, _, _, -, -, rfl⟩ := accept_cases h
  · exact absurd rfl hp
  · exact ⟨rfl, rfl⟩
  · exact ⟨rfl, rfl⟩

/-- A turn of rxi or csr leaves the transmit stream alone, unless it pulses TX_RST. -/
theorem transmits_other (hp : p ≠ .txc) (hrst : ∀ i s', accept p s = some (i, s') → isTxRst i = false)
    (h : transact p s = .next t) : Transmits s [] t := by
  obtain rfl | ⟨-, i, s', ha, hx⟩ := transact_next_cases h
  · exact transmits_of_same rfl rfl rfl rfl
  have hs := sameEngines_of_accept ha
  have hh := sameHost_of_exec hx
  obtain ⟨hin, hout⟩ := accept_keeps_txc hp ha
  have htx : t.tx = s'.tx := by
    have hport := port_of_accept ha
    cases p with
    | txc => exact absurd rfl hp
    | rxi => exact exec_rxi_tx hport hx
    | csr => exact exec_csr_tx hport (hrst i s' ha) hx
  exact transmits_of_same ((exec_next_cfg hx).trans hs.cfg) (htx.trans hs.tx) (hh.txcIn.trans hin) (hh.txsOut.trans hout)

theorem isTxRst_of_rxi (hp : i.port = .rxi) : isTxRst i = false := by
  cases i with
  | rxs | rxe | illegalRxi => rfl
  | txb | txc | txcc | illegalTxc | csrr | csrw => cases hp

/-- A host that makes no transmit reset offers no pulse of TX_RST. -/
theorem isTxRst_of_accept (hn : NoTxReset s) (hp : p ≠ .txc) (h : accept p s = some (i, t)) : isTxRst i = false := by
  obtain ⟨-, hcsr⟩ := hn
  obtain ⟨rfl, -⟩ | ⟨-, -, w, _, -, rfl, -⟩ | ⟨-, q, qs, hq, rfl, -⟩ := accept_cases h
  · exact absurd rfl hp
  · exact isTxRst_of_rxi (port_decodeRxi w)
  · have hall := List.all_eq_true.mp hcsr q (hq ▸ List.mem_cons_self)
    exact (Bool.not_eq_true' _).mp hall

/-- Every turn leaves the transmit stream conserved where the host makes no transmit reset. -/
theorem transmits_runTurn {v : Turn} (hl : legal s.cfg = true) (hi : TxInv s.cfg s.tx) (hn : NoTxReset s)
    (hv : v ≠ .resetRelease) (h : runTurn v s = .next t) : ∃ ws, Transmits s ws t := by
  cases v with
  | txc => exact transmits_txc hl hi h
  | rxi => exact ⟨[], transmits_other (by decide) (fun _ _ => isTxRst_of_accept hn (by decide)) h⟩
  | csr => exact ⟨[], transmits_other (by decide) (fun _ _ => isTxRst_of_accept hn (by decide)) h⟩
  | txs =>
    cases h
    cases s.rst with
    | true => exact ⟨[], transmits_of_same rfl rfl rfl rfl⟩
    | false => exact ⟨[], transmits_txsDeliver hl hi⟩
  | rxo =>
    cases h
    cases s.rst with
    | true => exact ⟨[], transmits_of_same rfl rfl rfl rfl⟩
    | false => exact ⟨[], transmits_rxoDeliver s⟩
  | resetAssert =>
    cases h
    exact ⟨[], transmits_of_same rfl rfl rfl rfl⟩
  | resetRelease => exact absurd rfl hv

/-! ## What a step leaves of the host's turns and requests -/

theorem csrIn_turns_of_accept (h : accept p s = some (i, t)) : t.csrIn <:+ s.csrIn ∧ t.turns = s.turns := by
  obtain ⟨-, -, _, _, -, -, rfl⟩ | ⟨-, -, _, _, -, -, rfl⟩ | ⟨-, q, qs, hq, -, rfl⟩ := accept_cases h
  · exact ⟨List.suffix_rfl, rfl⟩
  · exact ⟨List.suffix_rfl, rfl⟩
  · exact ⟨hq ▸ List.suffix_cons q qs, rfl⟩

theorem csrIn_turns_of_transact (h : transact p s = .next t) : t.csrIn <:+ s.csrIn ∧ t.turns = s.turns := by
  obtain rfl | ⟨-, i, s', ha, hx⟩ := transact_next_cases h
  · exact ⟨List.suffix_rfl, rfl⟩
  · have hh := sameHost_of_exec hx
    obtain ⟨hcsr, hturns⟩ := csrIn_turns_of_accept ha
    exact ⟨hh.csrIn ▸ hcsr, hh.turns.trans hturns⟩

theorem csrIn_turns_of_runTurn {v : Turn} (h : runTurn v s = .next t) : t.csrIn <:+ s.csrIn ∧ t.turns = s.turns := by
  cases v with
  | txc | rxi | csr => exact csrIn_turns_of_transact h
  | txs =>
    cases h
    cases hr : s.rst <;> cases hb : s.tx.busy <;> simp [txsDeliver_of_idle, txsDeliver_of_busy, hb]
  | rxo =>
    cases h
    cases hr : s.rst <;> cases ho : s.rxOut <;> simp [rxoDeliver, ho]
  | resetAssert =>
    cases h
    exact ⟨List.suffix_rfl, rfl⟩
  | resetRelease =>
    cases h
    cases hr : s.rst <;> simp [hardwareReset_eq]

/-- A step of a host that makes no transmit reset conserves the transmit stream, and the host goes on so. -/
theorem step_transmits (hl : legal s.cfg = true) (hi : TxInv s.cfg s.tx) (hn : NoTxReset s) (h : step s = .next t) :
    (∃ ws, Transmits s ws t) ∧ NoTxReset t := by
  cases hu : s.turns with
  | nil =>
    rw [step_of_no_turn hl hu] at h
    cases h
    exact ⟨⟨[], transmits_of_same rfl rfl rfl rfl⟩, hn⟩
  | cons v us =>
    obtain ⟨-, hrun⟩ := runTurn_of_step hu h
    obtain ⟨hturns, hcsr⟩ := hn
    rw [hu] at hturns
    have hn' : NoTxReset (s.setTurns us) := ⟨fun w hw => hturns w (List.mem_cons_of_mem v hw), hcsr⟩
    obtain ⟨ws, htr⟩ := transmits_runTurn (s := s.setTurns us) hl hi hn' (hturns v List.mem_cons_self) hrun
    obtain ⟨hsuf, hus⟩ := csrIn_turns_of_runTurn hrun
    refine ⟨⟨ws, htr.cfg, htr.words, htr.delivered, htr.samples⟩, ?_, ?_⟩
    · exact hus ▸ hn'.1
    · exact List.all_eq_true.mpr fun q hq => List.all_eq_true.mp hcsr q (hsuf.mem hq)

/-- Over any run of such a host the transmit stream is conserved, and the invariants hold at its end. -/
theorem run_transmits {n : Nat} (hl : legal s.cfg = true) (hi : TxInv s.cfg s.tx) (hn : NoTxReset s)
    (h : Host.Core.run Sys2Proof.core n s = .next t) : TxInv t.cfg t.tx ∧ ∃ ws, Transmits s ws t := by
  induction n generalizing s with
  | zero =>
    rw [run_zero] at h
    cases h
    exact ⟨hi, [], transmits_of_same rfl rfl rfl rfl⟩
  | succ n ih =>
    obtain ⟨s', hstep, hrun⟩ := run_succ_next h
    obtain ⟨hl', hi'⟩ := stepKeepsTransmitInvariants s s' hl hi hstep
    obtain ⟨⟨ws, htr⟩, hn'⟩ := step_transmits hl hi hn hstep
    obtain ⟨hinv, ws', htr'⟩ := ih hl' hi' hn' hrun
    exact ⟨hinv, ws ++ ws', htr.trans htr'⟩

/-- Settles O25: every step conserves delivered and remaining samples but for the sequence of an accepted word, and so does
every run. -/
theorem transmitStreamIsTheConcatenation : Obligations.TransmitStreamIsTheConcatenation := by
  refine ⟨fun c b n k w => ⟨rfl, rfl, rfl, rfl⟩, fun n s t hl hi hn h => ?_⟩
  obtain ⟨-, ws, htr⟩ := run_transmits hl hi hn h
  exact ⟨ws, htr.words, htr.samples⟩

/-! ## One command from an idle engine (rule R116) -/

/-- Where no further word is accepted, a run delivers a first part of what was left, and the rest is left. -/
theorem run_without_words {n : Nat} (hl : legal s.cfg = true) (hi : TxInv s.cfg s.tx) (hn : NoTxReset s)
    (h : Host.Core.run Sys2Proof.core n s = .next t) (hin : t.txcIn = s.txcIn) :
    ∃ k ≤ (txRest s.cfg s.tx).length, t.txsOut = s.txsOut ++ (txRest s.cfg s.tx).take k
      ∧ (t.tx.busy = true ↔ k < (txRest s.cfg s.tx).length) := by
  obtain ⟨hi', ws, htr⟩ := run_transmits hl hi hn h
  obtain ⟨l, hout⟩ := htr.delivered
  have hws : ws = [] := List.self_eq_append_left.mp (hin ▸ htr.words)
  have hsamples := htr.samples
  rw [hws, List.flatMap_nil, List.append_nil, ← hout, List.append_assoc] at hsamples
  have hrest : txRest s.cfg s.tx = l ++ txRest t.cfg t.tx := (List.append_cancel_left hsamples).symm
  have hlen : (txRest s.cfg s.tx).length = l.length + (txRest t.cfg t.tx).length := by rw [hrest, List.length_append]
  refine ⟨l.length, by omega, ?_, ?_⟩
  · rw [hrest, List.take_left, hout]
  · rw [← txRest_ne_nil_iff (htr.cfg ▸ hl) hi', ← List.length_pos_iff]
    omega

/-- Settles O24: the command leaves its sequence to deliver, which deliveries take in order, the engine busy until the
last. -/
theorem deliveriesAreTheCommandsSequence : Obligations.DeliveriesAreTheCommandsSequence := by
  intro i s t hp hl hi hb h
  have hx := tx_eq_reset_of_idle hi hb
  have hseq := txRest_txStart hl i
  have hstart := txInv_txStart hl i
  have hdeliver := deliverN_of_exec hl hx hp h
  obtain ⟨e, rfl⟩ := exec_idle_next hx hp h
  refine ⟨fun hnil => ?_, fun n u hn hrun hin => ?_, fun k _ => hdeliver k, ?_⟩
  · have hidle : (txStart s.cfg i).busy = false :=
      Bool.eq_false_iff.mpr fun hbusy => (txRest_ne_nil_iff hl hstart).mpr hbusy (hseq.trans hnil)
    exact (tx_eq_reset_of_idle hstart hidle).trans hx.symm
  · rw [← hseq]
    exact run_without_words (s := (s.setTx (txStart s.cfg i)).setErrTxc e) hl hstart hn hrun hin
  · rw [← hseq]
    exact congrArg State.tx (deliverN_all (s := (s.setTx (txStart s.cfg i)).setErrTxc e) hl hstart)

end Sys2Proof.Machine
end

section
/-!
PROOFS. The waveform of a byte stream (40_tx_synth.md rule R117): a run in which the host offers word after word and takes
every sample of each.
-/

namespace Sys2Proof.Machine

variable {s t : State} {ws : List TxcWord}

/-! ## A sequence of commands (rule R117) -/

theorem run_succ_of_step {n : Nat} (h : step s = .next t) :
    Host.Core.run Sys2Proof.core (n + 1) s = Host.Core.run Sys2Proof.core n t := by
  simp only [Host.Core.run]
  rw [show Sys2Proof.core.step s = .next t from h]

theorem txsDeliver_setTurns (s : State) (us : List Turn) : txsDeliver (s.setTurns us) = (txsDeliver s).setTurns us := by
  cases hb : s.tx.busy with
  | false => rw [txsDeliver_of_idle hb, txsDeliver_of_idle (by exact hb)]
  | true => rw [txsDeliver_of_busy hb, txsDeliver_of_busy (by exact hb)]; rfl

theorem txsDeliver_cfg_rst (s : State) : (txsDeliver s).cfg = s.cfg ∧ (txsDeliver s).rst = s.rst := by
  cases hb : s.tx.busy with
  | false => rw [txsDeliver_of_idle hb]; exact ⟨rfl, rfl⟩
  | true => rw [txsDeliver_of_busy hb]; exact ⟨rfl, rfl⟩

/-- `k` turns of txs are `k` consecutive deliveries. -/
theorem run_txs (hl : legal s.cfg = true) (hr : s.rst = false) (k : Nat) (us : List Turn) :
    Host.Core.run Sys2Proof.core k (s.setTurns (List.replicate k .txs ++ us)) = .next ((deliverN k s).setTurns us) := by
  induction k generalizing s with
  | zero => rfl
  | succ k ih =>
    obtain ⟨hcfg, hrst⟩ := txsDeliver_cfg_rst s
    have hstep : step (s.setTurns (List.replicate (k + 1) .txs ++ us))
        = .next ((txsDeliver s).setTurns (List.replicate k .txs ++ us)) :=
      (step_txs (s := s.setTurns (List.replicate (k + 1) .txs ++ us)) hl hr rfl).trans
        (congrArg _ (txsDeliver_setTurns s _))
    rw [run_succ_of_step hstep, deliverN]
    exact ih (hcfg ▸ hl) (hrst.trans hr)

/-- The turns in which a host offers the command of a word and takes all its samples. -/
def commandTurns (c : Config) (w : TxcWord) : List Turn :=
  .txc :: List.replicate (seq c (decodeTxc w)).length .txs

/-- The turn of txc in which an idle engine takes the command of a word. -/
theorem step_command {w : TxcWord} (hl : legal s.cfg = true) (hx : s.tx = TxEngine.reset) (hr : s.rst = false)
    (hin : s.txcIn = w :: ws) (hw : ∀ v, decodeTxc w ≠ .illegalTxc v) (us : List Turn) :
    step (s.setTurns (.txc :: us)) = .next (((s.setTxcIn ws).setTx (txStart s.cfg (decodeTxc w))).setTurns us) := by
  have hready : portReady .txc s = true := txcReady_of_idle (by rw [hx]; rfl)
  calc step (s.setTurns (.txc :: us))
      = transact .txc (s.setTurns us) := step_of_turn (s := s.setTurns (.txc :: us)) hl rfl
    _ = exec (decodeTxc w) ((s.setTurns us).setTxcIn ws) :=
        transact_of_offer (s := s.setTurns us) hr hready (takeWord_txc hin)
    _ = .next (((s.setTxcIn ws).setTx (txStart s.cfg (decodeTxc w))).setTurns us) :=
        exec_of_idle (s := (s.setTurns us).setTxcIn ws) hl hx (port_decodeTxc w) hw

/-- An idle engine takes a command, delivers its sequence, and the block is back where it was. -/
theorem run_command {w : TxcWord} (hl : legal s.cfg = true) (hx : s.tx = TxEngine.reset) (hr : s.rst = false)
    (hin : s.txcIn = w :: ws) (hw : ∀ v, decodeTxc w ≠ .illegalTxc v) (us : List Turn) :
    Host.Core.run Sys2Proof.core (commandTurns s.cfg w).length (s.setTurns (commandTurns s.cfg w ++ us))
      = .next (((s.setTurns us).setTxcIn ws).setTxsOut (s.txsOut ++ seq s.cfg (decodeTxc w))) := by
  have hback : s.setTx TxEngine.reset = s := hx ▸ setTx_self s
  have hall := deliverN_all (s := (s.setTxcIn ws).setTx (txStart s.cfg (decodeTxc w))) hl (txInv_txStart hl _)
  rw [setTx_tx, setTx_cfg, setTxcIn_cfg, txRest_txStart hl] at hall
  rw [commandTurns, List.length_cons, List.length_replicate, List.cons_append,
    run_succ_of_step (step_command hl hx hr hin hw _),
    run_txs (s := (s.setTxcIn ws).setTx (txStart s.cfg (decodeTxc w))) hl hr, hall]
  exact congrArg (fun t : State => Host.Outcome.next
    (((t.setTurns us).setTxcIn ws).setTxsOut (s.txsOut ++ seq s.cfg (decodeTxc w)))) hback

/-- The same, word after word. -/
theorem run_commands {rest : List TxcWord} (hl : legal s.cfg = true) (hx : s.tx = TxEngine.reset) (hr : s.rst = false)
    (hin : s.txcIn = ws ++ rest) (hw : ∀ w ∈ ws, ∀ v, decodeTxc w ≠ .illegalTxc v) (us : List Turn) :
    Host.Core.run Sys2Proof.core (ws.flatMap (commandTurns s.cfg)).length
        (s.setTurns (ws.flatMap (commandTurns s.cfg) ++ us))
      = .next (((s.setTurns us).setTxcIn rest).setTxsOut (s.txsOut ++ ws.flatMap fun w => seq s.cfg (decodeTxc w))) := by
  induction ws generalizing s with
  | nil =>
    rw [List.nil_append] at hin
    rw [List.flatMap_nil, List.flatMap_nil, List.append_nil, ← hin]
    rfl
  | cons w ws ih =>
    obtain ⟨hw1, hws⟩ := List.forall_mem_cons.mp hw
    have htail := ih (s := (s.setTxcIn (ws ++ rest)).setTxsOut (s.txsOut ++ seq s.cfg (decodeTxc w))) hl hx hr rfl hws
    rw [List.flatMap_cons, List.length_append, List.append_assoc,
      run_add_of_next _ (run_command hl hx hr hin hw1 _), List.flatMap_cons, ← List.append_assoc]
    exact htail

theorem decodeTxc_txc_word (n : BitVec 16) : decodeTxc (0x2000#16 ++ n) = .txc n := by
  obtain ⟨w, hw, hmatch⟩ := Laws.RowMatch.txc n
  obtain rfl : 0x2000#16 ++ n = w := PortWord.txc.inj hw
  rw [decodeTxc_of_txc hmatch]
  exact congrArg Instr.txc BitVec.extractLsb'_append_eq_right

theorem decodeTxc_txb_word (b : Byte) : decodeTxc (0x100000#24 ++ b) = .txb b := by
  obtain ⟨w, hw, hmatch⟩ := Laws.RowMatch.txb b
  obtain rfl : 0x100000#24 ++ b = w := PortWord.txc.inj hw
  rw [decodeTxc_of_txb hmatch]
  exact congrArg Instr.txb BitVec.extractLsb'_append_eq_right

/-- The words of the host sequence of rule R117. -/
def encodeWords (leader : BitVec 16) (bytes : List Byte) (trailer : BitVec 16) : List TxcWord :=
  (0x2000#16 ++ leader) :: (bytes.map fun b => 0x100000#24 ++ b) ++ [0x2000#16 ++ trailer]

theorem encodeWords_are_commands (leader : BitVec 16) (bytes : List Byte) (trailer : BitVec 16) :
    ∀ w ∈ encodeWords leader bytes trailer, ∀ v, decodeTxc w ≠ .illegalTxc v := by
  intro w hw v
  rw [encodeWords, List.cons_append, List.mem_cons, List.mem_append, List.mem_map, List.mem_singleton] at hw
  rcases hw with rfl | ⟨b, -, rfl⟩ | rfl
  · rw [decodeTxc_txc_word]; nofun
  · rw [decodeTxc_txb_word]; nofun
  · rw [decodeTxc_txc_word]; nofun

/-- Their sequences are the leader's carrier, the frames and the trailer's carrier. -/
theorem flatMap_seq_encodeWords (c : Config) (leader : BitVec 16) (bytes : List Byte) (trailer : BitVec 16) :
    (encodeWords leader bytes trailer).flatMap (fun w => seq c (decodeTxc w))
      = encodeSamples c leader.toNat bytes trailer.toNat := by
  simp only [encodeWords, encodeSamples, List.flatMap_append, List.flatMap_cons, List.flatMap_map, List.flatMap_nil,
    List.append_nil, decodeTxc_txc_word, decodeTxc_txb_word, seq]

/-- Settles O26: the host offers each word in turn and takes all its samples before it offers the next. -/
theorem encodeDeliversTheWaveform : Obligations.EncodeDeliversTheWaveform := by
  refine ⟨fun c m n => congrArg (· ++ _) (List.append_nil _), fun s leader trailer bytes rest us hl hi hb hr hin => ?_⟩
  refine ⟨(encodeWords leader bytes trailer).flatMap (commandTurns s.cfg), ?_⟩
  rw [← flatMap_seq_encodeWords]
  refine run_commands hl (tx_eq_reset_of_idle hi hb) hr ?_ (encodeWords_are_commands leader bytes trailer) us
  rw [hin, encodeWords, List.append_assoc]
  rfl

end Sys2Proof.Machine
end

section
/-!
PROOFS. One sample into the receive engine, state by state (41_rx_decode.md rules R143 to R147, R154): the exact next fields
in FILL, SEEK, SAMPLE and SKIP, and that a whole run of discarded samples leaves nothing but their number and the last
polarity.
-/

namespace Sys2Proof.Machine

variable {s : State} {c : Config} {r : RxEngine}

/-- A count below the range of its field is stored exactly (rules R32 to R35). -/
theorem toNat_ofNat_of_lt {w n : Nat} (h : n < 2 ^ w) : (BitVec.ofNat w n).toNat = n :=
  (BitVec.toNat_ofNat n w).trans (Nat.mod_eq_of_lt h)

/-! ## A sample that completes no byte, and one that does (rule R150) -/

theorem rxStall_of_not_sample (h : s.rx.state ≠ .sample) : rxStall s = false :=
  Bool.eq_false_iff.mpr fun hstall => h (rxStall_iff.mp hstall).1

/-- Without a byte, RXS writes the receive fields only. -/
theorem exec_rxs_silent {v : Byte} (hl : legal s.cfg = true) (hr : rxStall s = false)
    (h : rxTake s.cfg v s.rx = (r, none)) : exec (.rxs v) s = .next (s.setRx r) := by
  rw [exec_rxs_of_ready hl hr, h]
  exact congrArg Host.Outcome.next (congrArg (s.setRx r).setRxOut (List.append_nil s.rxOut))

theorem exec_rxs_emits {v b : Byte} (hl : legal s.cfg = true) (hr : rxStall s = false)
    (h : rxTake s.cfg v s.rx = (r, some b)) : exec (.rxs v) s = .next ((s.setRx r).setRxOut (s.rxOut ++ [b])) := by
  rw [exec_rxs_of_ready hl hr, h]
  rfl

/-! ## FILL and SEEK (rules R143, R144) -/

/-- Settles O31: the window's counters stay within their widths, and a full window wraps the write index to 0. -/
theorem sampleInFill : Obligations.SampleInFill := by
  intro v s hl hi hst e
  have hN := framesPerBit_bounds hl
  obtain ⟨⟨hlen, -, hsum, hfill, -⟩, -, -⟩ := hi
  obtain ⟨hlt, hptr, -⟩ := hfill hst
  have hones : ones s.rx.win ≤ s.rx.win.length := List.count_le_length
  have he := e.toNat_le
  have hfillFits : s.rx.fill.toNat + 1 < 2 ^ 17 := by omega
  have hsumFits : s.rx.sum.toNat + e.toNat < 2 ^ 17 := by omega
  have hnext := toNat_nextPtr hl s.rx
  refine ⟨_, exec_rxs_silent hl (rxStall_of_fill hst) (rxTake_of_fill hst v), ?_, hnext, ?_, ?_, fun hfull => ⟨?_, ?_⟩,
    fun hmore => ?_⟩
  · rw [rxFillStep, hptr]
    rfl
  · exact toNat_ofNat_of_lt hfillFits
  · exact toNat_ofNat_of_lt hsumFits
  · exact if_pos hfull
  · rw [hptr, hfull, Nat.mod_self] at hnext
    exact BitVec.eq_of_toNat_eq hnext
  · exact (if_neg hmore).trans hst

/-- The bit a slide evicts is one the sum counts (rule R33). -/
theorem evicted_le_sum (hw : WindowInv c r) : (evicted r).toNat ≤ r.sum.toNat := by
  obtain ⟨hlen, hptr, hsum, -, -⟩ := hw
  have hk : r.wptr.toNat < r.win.length := hlen ▸ hptr
  rw [hsum, evicted, List.getD_eq_getElem _ _ hk]
  cases hb : r.win[r.wptr.toNat] with
  | false => exact Nat.zero_le _
  | true => exact List.count_pos_iff.mpr (hb ▸ List.getElem_mem hk)

/-- Settles O32: the slid sum counts the slid window, so it fits rx_sum, and it decides between SEEK and SAMPLE. -/
theorem sampleInSeek : Obligations.SampleInSeek := by
  intro v s hl hi hst e old total
  obtain ⟨hw, ⟨-, -, -, hzero, -, -⟩, -⟩ := hi
  obtain ⟨hacc, hcnt, hbitn, hbyte⟩ := hzero (by rw [hst]; decide)
  have hsum : (BitVec.ofNat 17 (slidSum e s.rx)).toNat = slidSum e s.rx :=
    (toNat_slidSum hl hw e).trans (slidSum_eq_ones hw e).symm
  have hnext := toNat_nextPtr hl s.rx
  have hexec := exec_rxs_silent hl (rxStall_of_not_sample (by rw [hst]; decide)) (rxTake_of_seek hst v)
  refine ⟨evicted_le_sum hw, _, hexec, ?_⟩
  rw [rxSeekStep]
  split_ifs with hseen
  · exact ⟨rfl, hnext, hsum, fun _ => rfl, fun hlt => absurd (of_decide_eq_true hseen) (Nat.not_le_of_lt hlt)⟩
  · refine ⟨?_, hnext, hsum, fun hle => absurd (decide_eq_true hle) hseen, fun _ => hst⟩
    rw [← hacc, ← hcnt, ← hbitn, ← hbyte]
    rfl

/-! ## SAMPLE (rules R145, R147) -/

theorem one_shiftLeft_eq_ofNat (k : Nat) : (1#8 <<< k) = BitVec.ofNat 8 (2 ^ k) :=
  BitVec.eq_of_toNat_eq (by simp [Nat.shiftLeft_eq])

theorem withDataBit_eq (c : Config) (acc : Nat) (r : RxEngine) : withDataBit c acc r
    = if c.oneThreshold ≤ acc then r.byte ||| BitVec.ofNat 8 (2 ^ r.bitn.toNat) else r.byte := by
  rw [withDataBit, one_shiftLeft_eq_ofNat]

/-- Settles O33: the three cases of a sample step, with every counter within its width. -/
theorem sampleInSample : Obligations.SampleInSample := by
  intro v s hl hi hst hr e acc byte
  have hN := framesPerBit_bounds hl
  have htake := rxTake_of_sample (c := s.cfg) hst v
  have hroom := room_of_emits (v := v) hi hr
  obtain ⟨-, ⟨hcnt, hacc, hbitn, -⟩, -⟩ := hi
  have he := e.toNat_le
  have hbyte : withDataBit s.cfg acc { s.rx with prev := v.getLsbD 7 } = byte := withDataBit_eq _ _ _
  obtain ⟨hlt, hstep⟩ | ⟨hge, hbit, hstep⟩ | ⟨hge, hbit, hstep⟩ :=
    rxSampleStep_cases s.cfg e { s.rx with prev := v.getLsbD 7 }
  · refine ⟨fun _ => ⟨_, exec_rxs_silent hl hr (htake.trans hstep), rfl, ?_, ?_⟩, fun h => absurd hlt (Nat.not_lt_of_le h),
      fun h => absurd hlt (Nat.not_lt_of_le h)⟩
    · exact toNat_ofNat_of_lt (by simp only at hlt ⊢; omega)
    · exact toNat_ofNat_of_lt (by simp only at hlt ⊢; omega)
  · refine ⟨fun h => absurd h (Nat.not_lt_of_le hge), fun _ _ => ⟨_, exec_rxs_silent hl hr (htake.trans hstep), ?_, ?_⟩,
      fun _ h => absurd hbit (Nat.not_lt_of_le h)⟩
    · rw [← hbyte]
    · exact toNat_ofNat_of_lt (by simp only at hbit ⊢; omega)
  · refine ⟨fun h => absurd h (Nat.not_lt_of_le hge), fun _ h => absurd h (Nat.not_lt_of_le hbit),
      fun _ _ => ⟨_, hbyte ▸ exec_rxs_emits hl hr (htake.trans hstep), rfl, (toNat_skipLen hl).2, ?_⟩⟩
    exact hroom (by rw [htake.trans hstep]; nofun)

/-! ## SKIP (rules R146, R154) -/

/-- Settles O34: a discarded bit counts rx_skip down, and the last one clears the window. -/
theorem sampleInSkip : Obligations.SampleInSkip := by
  intro v s hl hi hst
  have hbound := s.rx.skip.isLt
  have hexec := exec_rxs_silent hl (rxStall_of_not_sample (by rw [hst]; decide)) (rxTake_of_skip hst v)
  refine ⟨fun hmore => ⟨_, hexec, ?_⟩, fun hlast => ?_⟩
  · rw [rxSkipStep, if_pos hmore]
    exact ⟨rfl, toNat_ofNat_of_lt (by omega)⟩
  · rw [hexec, rxSkipStep, if_neg (Nat.not_lt_of_le hlast)]
    rfl

theorem takeAll_concat (c : Config) (r : RxEngine) (vs : List Byte) (v : Byte) :
    takeAll c r (vs ++ [v]) = (rxTake c v (takeAll c r vs)).1 := takeAll_append c r vs [v]

/-- The engine in SKIP after `k` discarded samples, the last of them of polarity `p`. -/
def skipped (r : RxEngine) (k : Nat) (p : Bool) : RxEngine :=
  { r with prev := p, skip := BitVec.ofNat 18 (r.skip.toNat - k) }

theorem toNat_skip_skipped (r : RxEngine) (k : Nat) (p : Bool) :
    (skipped r k p).skip.toNat = r.skip.toNat - k := by
  have hbound := r.skip.isLt
  exact toNat_ofNat_of_lt (by omega)

/-- Of the samples SKIP discards nothing is left but their number and the polarity of the last. -/
theorem takeAll_skip (hst : r.state = .skip) (vs : List Byte) (hlt : vs.length < r.skip.toNat) :
    ∃ p, takeAll c r vs = skipped r vs.length p := by
  induction vs using List.reverseRecOn with
  | nil => exact ⟨r.prev, by simp [takeAll, skipped]⟩
  | append_singleton vs v ih =>
    rw [List.length_append, List.length_singleton] at hlt ⊢
    obtain ⟨p, hp⟩ := ih (by omega)
    have hmore : 1 < (skipped r vs.length p).skip.toNat := by
      rw [toNat_skip_skipped]
      omega
    refine ⟨v.getLsbD 7, ?_⟩
    rw [takeAll_concat, hp, rxTake_of_skip (r := skipped r vs.length p) hst, rxSkipStep, if_pos hmore,
      toNat_skip_skipped, Nat.sub_sub]
    rfl

/-- Settles O41: the next sample overwrites the polarity, so only the number of discarded samples is left. -/
theorem parityAndStopBitsAreNotExamined : Obligations.ParityAndStopBitsAreNotExamined := by
  refine ⟨fun v s hl hst => ?_, fun c r vs vs' z hl _ hs hst hlen hlt => ?_⟩
  · exact ⟨_, exec_rxs_silent hl (rxStall_of_not_sample (by rw [hst]; decide)) (rxTake_of_skip hst v)⟩
  obtain ⟨-, -, -, hzero, -, -⟩ := hs
  obtain ⟨-, -, -, hbyte⟩ := hzero (by rw [hst]; decide)
  obtain ⟨p, hp⟩ := takeAll_skip (c := c) hst vs hlt
  obtain ⟨p', hp'⟩ := takeAll_skip (c := c) hst vs' (hlen ▸ hlt)
  have hz (q : Bool) : rxTake c z (skipped r vs.length q) = (rxSkipStep c (skipped r vs.length (z.getLsbD 7)), none) :=
    rxTake_of_skip (r := skipped r vs.length q) hst z
  have hlast : takeAll c r (vs ++ [z]) = rxSkipStep c (skipped r vs.length (z.getLsbD 7)) := by
    rw [takeAll_concat, hp, hz]
  refine ⟨?_, ?_, ?_, ?_⟩
  · rw [hlast, takeAll_concat, hp', ← hlen, hz]
  · rw [hp, hz]
  · rw [hp]
    exact hbyte
  · rw [hlast]
    obtain ⟨hmore, hstep⟩ | ⟨hend, hstep⟩ := rxSkipStep_cases c (skipped r vs.length (z.getLsbD 7))
    · rw [toNat_skip_skipped] at hmore
      rw [hstep]
      exact iff_of_false (fun h => absurd (hst.symm.trans h) (by decide)) (by omega)
    · rw [toNat_skip_skipped] at hend
      rw [hstep]
      exact iff_of_true rfl (by omega)

end Sys2Proof.Machine
end

section
/-!
PROOFS. The bytes of a sign-change stream (41_rx_decode.md rule R155): `dec` is the rule's own recursion, and its
byte is the one that data bits set one by one give.
-/

namespace Sys2Proof.Machine

variable {c : Config} {r : RxEngine} {e : Bool} {es : List Bool}

/-! ## `dec` as the rule writes it -/

theorem length_of_seekStart {win rest : List Bool} (h : seekStart c win es = some rest) : rest.length < es.length := by
  induction es generalizing win with
  | nil => cases h
  | cons e es ih =>
    rw [seekStart] at h
    split_ifs at h with hsum
    · cases h
      exact Nat.lt_succ_self _
    · exact Nat.lt_succ_of_lt (ih h)

theorem decodeRounds_nil (hl : legal c = true) (n : Nat) : decodeRounds c n [] = [] := by
  cases n with
  | zero => rfl
  | succ n => exact if_pos (framesPerBit_bounds hl).1

/-- Rounds beyond the length of the stream change nothing: a round that goes on takes an element at least. -/
theorem decodeRounds_congr (hl : legal c = true) {m n : Nat} (hm : es.length ≤ m) (hn : es.length ≤ n) :
    decodeRounds c m es = decodeRounds c n es := by
  induction m generalizing n es with
  | zero =>
    obtain rfl := List.length_eq_zero_iff.mp (Nat.le_zero.mp hm)
    exact (decodeRounds_nil hl n).symm
  | succ m ih =>
    cases n with
    | zero =>
      obtain rfl := List.length_eq_zero_iff.mp (Nat.le_zero.mp hn)
      exact decodeRounds_nil hl _
    | succ n =>
      rw [decodeRounds, decodeRounds]
      cases hs : seekStart c (es.take c.framesPerBit) (es.drop c.framesPerBit) with
      | none => rfl
      | some r =>
        have hlt := length_of_seekStart hs
        have hrest : (r.drop (8 * c.framesPerBit + skipLen c)).length ≤ r.length :=
          (List.drop_sublist _ _).length_le
        rw [List.length_drop] at hlt
        simp only
        rw [ih (by omega) (n := n) (by omega)]

/-- `sample(R)` (rule R155). -/
def sampleDec (c : Config) (es : List Bool) : List Byte :=
  if es.length < 8 * c.framesPerBit then []
  else dataByte c es :: dec c (es.drop (8 * c.framesPerBit + skipLen c))

/-- `seek(W, E)` (rule R155). -/
def seekDec (c : Config) (win es : List Bool) : List Byte :=
  match seekStart c win es with
  | none => []
  | some r => sampleDec c r

theorem seekDec_nil (c : Config) (win : List Bool) : seekDec c win [] = [] := rfl

theorem seekDec_cons (c : Config) (win : List Bool) (e : Bool) (es : List Bool) : seekDec c win (e :: es) =
    if ones (win.drop 1 ++ [e]) ≤ c.startThreshold then sampleDec c es else seekDec c (win.drop 1 ++ [e]) es := by
  rw [seekDec, seekStart]
  split_ifs <;> rfl

theorem dec_of_short (h : es.length < c.framesPerBit) : dec c es = [] := by
  cases es with
  | nil => rfl
  | cons e es => exact if_pos h

/-- `dec = fill` (rule R155). -/
theorem dec_of_long (hl : legal c = true) (h : c.framesPerBit ≤ es.length) :
    dec c es = seekDec c (es.take c.framesPerBit) (es.drop c.framesPerBit) := by
  have hone : decodeRounds c (es.length + 1) es = dec c es := decodeRounds_congr hl (Nat.le_succ _) (Nat.le_refl _)
  rw [← hone, decodeRounds, if_neg (Nat.not_lt_of_le h), seekDec]
  cases hs : seekStart c (es.take c.framesPerBit) (es.drop c.framesPerBit) with
  | none => rfl
  | some r =>
    have hlt := length_of_seekStart hs
    have hrest : (r.drop (8 * c.framesPerBit + skipLen c)).length ≤ r.length :=
      (List.drop_sublist _ _).length_le
    rw [List.length_drop] at hlt
    simp only [sampleDec]
    rw [decodeRounds_congr hl (by omega) (Nat.le_refl _), dec]

/-- A window full of bits taken before the stream: the two ways to read the same stream. -/
theorem dec_append (hl : legal c = true) {win : List Bool} (h : win.length = c.framesPerBit) (es : List Bool) :
    dec c (win ++ es) = seekDec c win es := by
  rw [dec_of_long hl (by simp [h]), List.take_left' h, List.drop_left' h]

/-! ## The data bits of a byte (rule R145) -/

/-- The next `n` data bits of a stream. -/
def dataBits (c : Config) : Nat → List Bool → List Bool
  | 0, _ => []
  | n + 1, es => decide (c.oneThreshold ≤ ones (es.take c.framesPerBit)) :: dataBits c n (es.drop c.framesPerBit)

theorem dataBits_eq_map (c : Config) (n : Nat) (es : List Bool) : dataBits c n es =
    (List.range n).map fun k => decide (c.oneThreshold ≤ ones ((es.drop (k * c.framesPerBit)).take c.framesPerBit)) := by
  induction n generalizing es with
  | zero => rfl
  | succ n ih =>
    rw [dataBits, ih, List.range_succ_eq_map, List.map_cons, List.map_map, Nat.zero_mul, List.drop_zero]
    simp only [List.drop_drop, Function.comp_def, Nat.succ_mul, Nat.add_comm]

/-- A byte with the bits from position `k` on set where `bits` says so. -/
def withBits (byte : Byte) (k : Nat) : List Bool → Byte
  | [] => byte
  | b :: bits => withBits (if b then byte ||| 1#8 <<< k else byte) (k + 1) bits

theorem withBits_append (byte : Byte) (k : Nat) (bits : List Bool) (b : Bool) : withBits byte k (bits ++ [b]) =
    if b then withBits byte k bits ||| 1#8 <<< (k + bits.length) else withBits byte k bits := by
  induction bits generalizing byte k with
  | nil => rfl
  | cons a bits ih => rw [List.cons_append, withBits, ih, withBits, List.length_cons, Nat.add_right_comm, Nat.add_assoc]

/-- Setting bits one by one from 0 adds their weights. -/
theorem withBits_zero_range (p : Nat → Bool) (n : Nat) :
    withBits 0 0 ((List.range n).map p) = BitVec.ofNat 8 (((List.range n).map fun k => if p k then 2 ^ k else 0).sum)
      ∧ ((List.range n).map fun k => if p k then 2 ^ k else 0).sum < 2 ^ n := by
  induction n with
  | zero => exact ⟨rfl, Nat.one_pos⟩
  | succ n ih =>
    obtain ⟨hval, hlt⟩ := ih
    rw [List.range_succ, List.map_append, List.map_append, List.sum_append, List.map_singleton, List.map_singleton,
      List.sum_singleton, withBits_append, List.length_map, List.length_range, hval, Nat.zero_add, one_shiftLeft_eq_ofNat]
    cases p n with
    | false => exact ⟨rfl, by simp only [Bool.false_eq_true, if_false]; omega⟩
    | true =>
      have hor := Nat.two_pow_add_eq_or_of_lt hlt 1
      rw [Nat.mul_one] at hor
      refine ⟨?_, by simp only [if_true]; omega⟩
      rw [if_pos rfl, if_pos rfl, ← BitVec.ofNat_or, Nat.or_comm, ← hor, Nat.add_comm]

/-- The byte of rule R155 is the one SAMPLE assembles bit by bit. -/
theorem withBits_dataBits (c : Config) (es : List Bool) : withBits 0 0 (dataBits c 8 es) = dataByte c es := by
  rw [dataBits_eq_map, (withBits_zero_range _ 8).1, dataByte]
  simp only [decide_eq_true_eq]

end Sys2Proof.Machine
end

section
/-!
PROOFS. The receive engine as a decoder in progress (41_rx_decode.md rules R143 to R147, R155): in each of its states it has a
definite list of bytes still to emit for every stream of bits to come, and every bit it takes keeps that list.
-/

namespace Sys2Proof.Machine

variable {c : Config} {r : RxEngine}

/-! ## The window in order of arrival (rule R32) -/

/-- The window's cells, oldest first. -/
def window (r : RxEngine) : List Bool := r.win.rotate r.wptr.toNat

theorem length_window (hw : WindowInv c r) : (window r).length = c.framesPerBit := by
  rw [window, List.length_rotate]
  exact hw.1

theorem ones_window (hw : WindowInv c r) : ones (window r) = r.sum.toNat := by
  obtain ⟨-, -, hsum, -, -⟩ := hw
  exact ((List.rotate_perm _ _).count_eq true).trans hsum.symm

/-- Writing the oldest cell and stepping the index drops the oldest bit and appends the new one (rules R143, R144). -/
theorem rotate_set_nextPtr (hl : legal c = true) (hw : WindowInv c r) (e : Bool) :
    (r.win.set r.wptr.toNat e).rotate (nextPtr c r).toNat = (window r).drop 1 ++ [e] := by
  obtain ⟨hlen, hptr, -, -, -⟩ := hw
  have hk : r.wptr.toNat < r.win.length := hlen ▸ hptr
  have hset : (r.win.set r.wptr.toNat e).length = c.framesPerBit := List.length_set.trans hlen
  rw [toNat_nextPtr hl, ← hset, List.rotate_mod, List.rotate_eq_drop_append_take (by rw [List.length_set]; omega),
    window, List.rotate_eq_drop_append_take hk.le, List.drop_set_of_lt (Nat.lt_succ_self _),
    List.drop_append_of_le_length (by rw [List.length_drop]; omega), List.drop_drop, List.append_assoc,
    List.take_succ_eq_append_getElem (by rw [List.length_set]; omega), List.getElem_set_self,
    List.take_set_of_le (Nat.le_refl _)]

theorem window_fillStep (hl : legal c = true) (hw : WindowInv c r) (e : Bool) :
    window (rxFillStep c e r) = (window r).drop 1 ++ [e] := rotate_set_nextPtr hl hw e

theorem window_seekStep (hl : legal c = true) (hw : WindowInv c r) (e : Bool) :
    window (rxSeekStep c e r) = (window r).drop 1 ++ [e] := by
  obtain h | h := rxSeekStep_cases c e r <;> rw [h] <;> exact rotate_set_nextPtr hl hw e

/-- SEEK's test counts the 1 cells of the slid window (rules R33, R144). -/
theorem slidSum_eq_ones_window (hl : legal c = true) (hw : WindowInv c r) (e : Bool) :
    slidSum e r = ones ((window r).drop 1 ++ [e]) := by
  rw [slidSum_eq_ones hw, ← rotate_set_nextPtr hl hw]
  exact ((List.rotate_perm _ _).count_eq true).symm

/-! ## The bytes still to emit (rule R155) -/

/-- `sample(R)` (rule R155) from inside: `acc` ones in `cnt` bits taken of data bit `k`, the bits before it in `byte`. -/
def sampleRest (c : Config) (acc cnt k : Nat) (byte : Byte) (es : List Bool) : List Byte :=
  let left := (7 - k) * c.framesPerBit + (c.framesPerBit - cnt)
  if es.length < left then []
  else
    withBits byte k (decide (c.oneThreshold ≤ acc + ones (es.take (c.framesPerBit - cnt)))
        :: dataBits c (7 - k) (es.drop (c.framesPerBit - cnt)))
      :: dec c (es.drop (left + skipLen c))

theorem sampleRest_start (c : Config) (es : List Bool) : sampleRest c 0 0 0 0 es = sampleDec c es := by
  have hleft : (7 - 0) * c.framesPerBit + (c.framesPerBit - 0) = 8 * c.framesPerBit := by omega
  rw [sampleRest, sampleDec, hleft, ← withBits_dataBits]
  simp only [Nat.zero_add]
  rfl

/-- The bytes an engine emits for the bits `es` still to come. -/
def rxRest (c : Config) (r : RxEngine) (es : List Bool) : List Byte :=
  match r.state with
  | .fill => dec c ((window r).drop (c.framesPerBit - r.fill.toNat) ++ es)
  | .seek => seekDec c (window r) es
  | .sample => sampleRest c r.acc.toNat r.cnt.toNat r.bitn.toNat r.byte es
  | .skip => dec c (es.drop r.skip.toNat)

theorem rxRest_of_fill (h : r.state = .fill) (es : List Bool) :
    rxRest c r es = dec c ((window r).drop (c.framesPerBit - r.fill.toNat) ++ es) := by
  simp only [rxRest, h]

theorem rxRest_of_seek (h : r.state = .seek) (es : List Bool) : rxRest c r es = seekDec c (window r) es := by
  simp only [rxRest, h]

theorem rxRest_of_sample (h : r.state = .sample) (es : List Bool) :
    rxRest c r es = sampleRest c r.acc.toNat r.cnt.toNat r.bitn.toNat r.byte es := by
  simp only [rxRest, h]

theorem rxRest_of_skip (h : r.state = .skip) (es : List Bool) : rxRest c r es = dec c (es.drop r.skip.toNat) := by
  simp only [rxRest, h]

/-- An engine that has just cleared its window decodes what comes as a new stream. -/
theorem rxRest_of_cleared (hw : WindowInv c r) (hst : r.state = .fill) (hfill : r.fill = 0) (es : List Bool) :
    rxRest c r es = dec c es := by
  rw [rxRest_of_fill hst, hfill]
  exact congrArg (fun l => dec c (l ++ es)) (List.drop_of_length_le (length_window hw).le)

theorem rxRest_reset (hl : legal c = true) (es : List Bool) :
    rxRest c (RxEngine.reset c.framesPerBit) es = dec c es :=
  rxRest_of_cleared (rxInv_reset (o := []) hl (Nat.zero_le _)).1 rfl rfl es

/-- No state has a byte to emit once no bit comes any more. -/
theorem rxRest_nil (hw : WindowInv c r) (hs : SamplerInv c r) : rxRest c r [] = [] := by
  cases hst : r.state with
  | fill =>
    have hlen := length_window hw
    obtain ⟨-, -, -, hfill, -⟩ := hw
    obtain ⟨hlt, -, -⟩ := hfill hst
    rw [rxRest_of_fill hst]
    refine dec_of_short ?_
    rw [List.append_nil, List.length_drop, hlen]
    omega
  | seek => exact rxRest_of_seek hst []
  | sample =>
    obtain ⟨hcnt, -⟩ := hs
    rw [rxRest_of_sample hst]
    refine if_pos ?_
    rw [List.length_nil]
    omega
  | skip =>
    rw [rxRest_of_skip hst, List.drop_nil]
    rfl

/-! ## Every bit keeps the bytes to come -/

theorem rxRest_fillStep (hl : legal c = true) (hw : WindowInv c r) (hst : r.state = .fill) (e : Bool) (es : List Bool) :
    rxRest c (rxFillStep c e r) es = rxRest c r (e :: es) := by
  have hN := framesPerBit_bounds hl
  have hlen := length_window hw
  have hwindow := window_fillStep hl hw e
  obtain ⟨-, -, -, hfill, -⟩ := hw
  obtain ⟨hlt, -, -⟩ := hfill hst
  rw [rxRest_of_fill hst, List.append_cons]
  by_cases hfull : r.fill.toNat + 1 = c.framesPerBit
  · have hone : c.framesPerBit - r.fill.toNat = 1 := by omega
    rw [rxRest_of_seek (if_pos hfull), hwindow, hone, dec_append hl]
    rw [List.length_append, List.length_drop, hlen, List.length_singleton]
    omega
  · have hfill' : (rxFillStep c e r).fill.toNat = r.fill.toNat + 1 := toNat_ofNat_of_lt (by omega)
    have hmore : c.framesPerBit - r.fill.toNat = 1 + (c.framesPerBit - (r.fill.toNat + 1)) := by omega
    rw [rxRest_of_fill ((if_neg hfull).trans hst), hwindow, hfill', hmore, ← List.drop_drop,
      List.drop_append_of_le_length (by rw [List.length_drop]; omega)]

theorem rxSeekStep_of_seen {e : Bool} (h : slidSum e r ≤ c.startThreshold) : rxSeekStep c e r = { r with
    win := r.win.set r.wptr.toNat e, wptr := nextPtr c r, sum := BitVec.ofNat 17 (slidSum e r)
    state := .sample, acc := 0, cnt := 0, bitn := 0, byte := 0 } := if_pos (decide_eq_true h)

theorem rxSeekStep_of_not_seen {e : Bool} (h : ¬ slidSum e r ≤ c.startThreshold) : rxSeekStep c e r = { r with
    win := r.win.set r.wptr.toNat e, wptr := nextPtr c r, sum := BitVec.ofNat 17 (slidSum e r) } :=
  if_neg fun hseen => h (of_decide_eq_true hseen)

theorem rxRest_seekStep (hl : legal c = true) (hw : WindowInv c r) (hst : r.state = .seek) (e : Bool) (es : List Bool) :
    rxRest c (rxSeekStep c e r) es = rxRest c r (e :: es) := by
  have hwindow := window_seekStep hl hw e
  rw [rxRest_of_seek hst, seekDec_cons, ← slidSum_eq_ones_window hl hw]
  split_ifs with hseen
  · rw [rxSeekStep_of_seen hseen]
    exact sampleRest_start c es
  · have hst' : (rxSeekStep c e r).state = .seek := by
      rw [rxSeekStep_of_not_seen hseen]
      exact hst
    rw [rxRest_of_seek hst', hwindow]

theorem rxRest_skipStep (hl : legal c = true) (hw : WindowInv c r) (hs : SamplerInv c r) (hst : r.state = .skip) (e : Bool)
    (es : List Bool) : rxRest c (rxSkipStep c r) es = rxRest c r (e :: es) := by
  have hw' := windowInv_skipStep hl hst hw
  have hbound := r.skip.isLt
  obtain ⟨-, -, -, -, hskip, -⟩ := hs
  obtain ⟨hpos, -⟩ := hskip hst
  obtain ⟨k, hk⟩ := Nat.exists_eq_add_of_le' hpos
  rw [rxRest_of_skip hst, hk, List.drop_succ_cons]
  obtain ⟨hmore, h⟩ | ⟨hlast, h⟩ := rxSkipStep_cases c r
  · have hst' : (rxSkipStep c r).state = .skip := by
      rw [h]
      exact hst
    have hskip' : (rxSkipStep c r).skip.toNat = k := by
      rw [h]
      exact (toNat_ofNat_of_lt (by omega)).trans (by omega)
    rw [rxRest_of_skip hst', hskip']
  · obtain rfl : k = 0 := by omega
    rw [rxRest_of_cleared hw' (by rw [h]) (by rw [h])]
    rfl

theorem ones_cons (e : Bool) (es : List Bool) : ones (e :: es) = e.toNat + ones es := by
  cases e <;> simp [ones, Nat.add_comm]

/-- A bit of a data bit that is not its last. -/
theorem sampleRest_count {acc cnt : Nat} (hcnt : cnt + 1 < c.framesPerBit) (k : Nat) (byte : Byte) (e : Bool)
    (es : List Bool) :
    sampleRest c (acc + e.toNat) (cnt + 1) k byte es = sampleRest c acc cnt k byte (e :: es) := by
  obtain ⟨m, hm⟩ : ∃ m, c.framesPerBit - cnt = m + 1 := ⟨c.framesPerBit - (cnt + 1), by omega⟩
  have hm' : c.framesPerBit - (cnt + 1) = m := by omega
  simp only [sampleRest, hm, hm', ← Nat.add_assoc, List.length_cons, Nat.add_lt_add_iff_right, List.take_succ_cons,
    List.drop_succ_cons, Nat.add_right_comm _ 1, ones_cons]

theorem ones_singleton (e : Bool) : ones [e] = e.toNat := by
  cases e <;> rfl

/-- The last bit of a data bit before the eighth. -/
theorem sampleRest_dataBit {acc cnt k : Nat} (hcnt : c.framesPerBit - cnt = 1) (hk : k < 7) (byte : Byte) (e : Bool)
    (es : List Bool) :
    sampleRest c 0 0 (k + 1) (if c.oneThreshold ≤ acc + e.toNat then byte ||| 1#8 <<< k else byte) es
      = sampleRest c acc cnt k byte (e :: es) := by
  obtain ⟨n, hn⟩ : ∃ n, 7 - k = n + 1 := ⟨7 - (k + 1), by omega⟩
  have hn' : 7 - (k + 1) = n := by omega
  simp only [sampleRest, hcnt, hn, hn', Nat.succ_mul, List.length_cons, Nat.add_lt_add_iff_right, Nat.add_right_comm _ 1,
    List.drop_succ_cons, List.take_succ_cons, List.take_zero, List.drop_zero, ones_singleton, withBits, dataBits,
    decide_eq_true_eq, Nat.zero_add, Nat.sub_zero]

/-- The last bit of the eighth data bit. -/
theorem sampleRest_byte {acc cnt : Nat} (hcnt : c.framesPerBit - cnt = 1) (byte : Byte) (e : Bool) (es : List Bool) :
    sampleRest c acc cnt 7 byte (e :: es)
      = (if c.oneThreshold ≤ acc + e.toNat then byte ||| 1#8 <<< 7 else byte) :: dec c (es.drop (skipLen c)) := by
  have hlong : ¬ (e :: es).length < 1 := by simp
  simp only [sampleRest, hcnt, hlong, if_false, Nat.sub_self, Nat.zero_mul, Nat.zero_add, Nat.add_comm 1,
    List.drop_succ_cons, List.take_succ_cons, List.take_zero, ones_singleton, withBits, dataBits, decide_eq_true_eq]

theorem rxRest_sampleStep (hl : legal c = true) (hs : SamplerInv c r) (hst : r.state = .sample) (e : Bool)
    (es : List Bool) :
    (rxSampleStep c e r).2.toList ++ rxRest c (rxSampleStep c e r).1 es = rxRest c r (e :: es) := by
  have hN := framesPerBit_bounds hl
  have he := e.toNat_le
  obtain ⟨hcnt, hacc, hbitn, -⟩ := hs
  rw [rxRest_of_sample hst]
  obtain ⟨hlt, h⟩ | ⟨hge, hbit, h⟩ | ⟨hge, hbit, h⟩ := rxSampleStep_cases c e r
  · have haccFits : (BitVec.ofNat 17 (r.acc.toNat + e.toNat)).toNat = r.acc.toNat + e.toNat := toNat_ofNat_of_lt (by omega)
    have hcntFits : (BitVec.ofNat 16 (r.cnt.toNat + 1)).toNat = r.cnt.toNat + 1 := toNat_ofNat_of_lt (by omega)
    rw [h, Option.toList_none, List.nil_append, rxRest_of_sample (by exact hst), haccFits, hcntFits]
    exact sampleRest_count hlt _ _ e es
  · have hbitnFits : (BitVec.ofNat 4 (r.bitn.toNat + 1)).toNat = r.bitn.toNat + 1 := toNat_ofNat_of_lt (by omega)
    rw [h, Option.toList_none, List.nil_append, rxRest_of_sample (by exact hst), hbitnFits]
    exact sampleRest_dataBit (by omega) hbit _ e es
  · have hseven : r.bitn.toNat = 7 := by omega
    rw [hseven, sampleRest_byte (by omega), h, rxRest_of_skip rfl, (toNat_skipLen hl).2, withDataBit, hseven]
    rfl

/-- The bytes to come before a bit are those after it, behind the byte the bit completes, if it completes one. -/
theorem rxRest_dispatch (hl : legal c = true) (hw : WindowInv c r) (hs : SamplerInv c r) (e : Bool) (es : List Bool) :
    (rxDispatch c e r).2.toList ++ rxRest c (rxDispatch c e r).1 es = rxRest c r (e :: es) := by
  cases hst : r.state with
  | fill =>
    simp only [rxDispatch, hst]
    exact rxRest_fillStep hl hw hst e es
  | seek =>
    simp only [rxDispatch, hst]
    exact rxRest_seekStep hl hw hst e es
  | sample =>
    simp only [rxDispatch, hst]
    exact rxRest_sampleStep hl hs hst e es
  | skip =>
    simp only [rxDispatch, hst]
    exact rxRest_skipStep hl hw hs hst e es

/-! ## The bytes of a sample stream -/

/-- The bytes an engine emits while it takes the samples `vs`, where no stall holds one back (rule R150). -/
def bytesOf (c : Config) (r : RxEngine) : List Byte → List Byte
  | [] => []
  | v :: vs => (rxTake c v r).2.toList ++ bytesOf c (rxTake c v r).1 vs

theorem bytesOf_concat (c : Config) (r : RxEngine) (vs : List Byte) (v : Byte) :
    bytesOf c r (vs ++ [v]) = bytesOf c r vs ++ (rxTake c v (takeAll c r vs)).2.toList := by
  induction vs generalizing r with
  | nil => exact List.append_nil _
  | cons w vs ih => rw [List.cons_append, bytesOf, ih, bytesOf, takeAll, List.append_assoc]

/-- What an engine emits is fixed by the sign-change bits of the samples. -/
theorem bytesOf_eq_rxRest (hl : legal c = true) (hw : WindowInv c r) (hs : SamplerInv c r) (vs : List Byte) :
    bytesOf c r vs = rxRest c r (edges r.prev vs) := by
  induction vs generalizing r with
  | nil => exact (rxRest_nil hw hs).symm
  | cons v vs ih =>
    obtain ⟨hw', hs'⟩ := engineInv_dispatch (r := { r with prev := v.getLsbD 7 }) hl hw hs (edge v r.prev)
    rw [bytesOf, ih (r := (rxTake c v r).1) hw' hs', rxTake_prev]
    exact rxRest_dispatch (r := { r with prev := v.getLsbD 7 }) hl hw hs (edge v r.prev) _

/-- From reset the bytes are `dec` of the sign-change bits (rule R155). -/
theorem bytesOf_reset (hl : legal c = true) (vs : List Byte) :
    bytesOf c (RxEngine.reset c.framesPerBit) vs = dec c (edges false vs) := by
  obtain ⟨hw, hs, -⟩ := rxInv_reset (o := []) hl (Nat.zero_le _)
  exact (bytesOf_eq_rxRest hl hw hs vs).trans (rxRest_reset hl _)

end Sys2Proof.Machine
end

section
/-!
PROOFS. The receive stream over a run (41_rx_decode.md rules R155, R156): a turn moves a byte from rx_out to the host, or takes
the word on offer, or leaves the receive side alone; so the bytes that have come out are those of the samples taken.
-/

namespace Sys2Proof.Machine

variable {c : Config} {s s' t : State} {i : Instr} {p : InPort} {vs : List Byte}

/-! ## What a turn does to the receive side -/

/-- Two states that agree in the receive fields, in the receive words on offer, and in the bytes that have come out of the
engine, in rx_out or delivered. -/
structure SameReceive (s t : State) : Prop where
  rx : t.rx = s.rx
  rxiIn : t.rxiIn = s.rxiIn
  bytes : t.rxoOut ++ t.rxOut = s.rxoOut ++ s.rxOut

theorem sameReceive_refl (s : State) : SameReceive s s := ⟨rfl, rfl, rfl⟩

theorem SameReceive.trans (h : SameReceive s s') (h' : SameReceive s' t) : SameReceive s t :=
  ⟨h'.rx.trans h.rx, h'.rxiIn.trans h.rxiIn, h'.bytes.trans h.bytes⟩

theorem sameReceive_of_exec_txc (hp : i.port = .txc) (h : exec i s = .next t) : SameReceive s t := by
  obtain rfl | ⟨_, -, rfl⟩ | ⟨-, _, -, rfl⟩ | ⟨_, -, rfl⟩ := exec_txc_next_cases hp h <;> exact ⟨rfl, rfl, rfl⟩

/-- Without a pulse of RX_RST a control-register access leaves the receive side alone. -/
theorem sameReceive_of_exec_csr (hp : i.port = .csr) (hrst : isRxRst i = false) (h : exec i s = .next t) :
    SameReceive s t := by
  obtain rfl | ⟨_, _, -, rfl⟩ | ⟨d, rfl, rfl⟩ | ⟨d, -, rfl⟩ := exec_csr_next_cases hp h
  · exact sameReceive_refl _
  · exact ⟨rfl, rfl, rfl⟩
  · refine ⟨?_, by rw [writeCtrl_eq], ?_⟩
    · rw [writeCtrl_rx, hrst]
      rfl
    · rw [writeCtrl_rxOut, hrst, writeCtrl_eq]
      rfl
  · rw [writeStatus_eq]
    exact ⟨rfl, rfl, rfl⟩

theorem sameReceive_of_accept (hp : p ≠ .rxi) (h : accept p s = some (i, t)) : SameReceive s t := by
  obtain ⟨-, -, _, _, -, -, rfl⟩ | ⟨rfl, -⟩ | ⟨-, _, _, -, -, rfl⟩ := accept_cases h
  · exact ⟨rfl, rfl, rfl⟩
  · exact absurd rfl hp
  · exact ⟨rfl, rfl, rfl⟩

/-- The turn of another port leaves the receive side alone where the host makes no receive reset. -/
theorem sameReceive_of_transact (hn : NoRxReset s) (hp : p ≠ .rxi) (h : transact p s = .next t) : SameReceive s t := by
  obtain rfl | ⟨-, i, s', ha, hx⟩ := transact_next_cases h
  · exact sameReceive_refl _
  refine (sameReceive_of_accept hp ha).trans ?_
  obtain ⟨-, -, w, _, -, rfl, -⟩ | ⟨rfl, -⟩ | ⟨-, q, qs, hq, rfl, -⟩ := accept_cases ha
  · exact sameReceive_of_exec_txc (port_decodeTxc w) hx
  · exact absurd rfl hp
  · have hall := List.all_eq_true.mp hn.2 q (hq ▸ List.mem_cons_self)
    exact sameReceive_of_exec_csr (port_decodeCsr q) ((Bool.not_eq_true' _).mp hall) hx

theorem sameReceive_txsDeliver (s : State) : SameReceive s (txsDeliver s) := by
  cases hb : s.tx.busy with
  | false =>
    rw [txsDeliver_of_idle hb]
    exact sameReceive_refl s
  | true =>
    rw [txsDeliver_of_busy hb]
    exact ⟨rfl, rfl, rfl⟩

/-- A delivery moves the oldest byte of rx_out to the end of what the host has (rule R153). -/
theorem sameReceive_rxoDeliver (s : State) : SameReceive s (rxoDeliver s) := by
  cases ho : s.rxOut with
  | nil =>
    rw [rxoDeliver_of_empty ho]
    exact sameReceive_refl s
  | cons b bs =>
    rw [rxoDeliver_of_cons ho]
    exact ⟨rfl, rfl, by rw [ho]; exact (List.append_cons _ _ _).symm⟩

/-- Everything a turn can do to the receive side where the host makes no receive reset: nothing, or the transaction of the
word on offer to an engine that is not stalled. -/
theorem runTurn_receive_cases {u : Turn} (hn : NoRxReset s) (hu : u ≠ .resetRelease) (h : runTurn u s = .next t) :
    SameReceive s t
      ∨ ∃ w ws, s.rxiIn = w :: ws ∧ rxStall s = false ∧ exec (decodeRxi w) (s.setRxiIn ws) = .next t := by
  cases u with
  | txc => exact .inl (sameReceive_of_transact hn (by decide) h)
  | csr => exact .inl (sameReceive_of_transact hn (by decide) h)
  | rxi =>
    obtain rfl | ⟨-, i, s', ha, hx⟩ := transact_next_cases h
    · exact .inl (sameReceive_refl _)
    obtain ⟨hp, -⟩ | ⟨-, hr, w, ws, hw, rfl, rfl⟩ | ⟨hp, -⟩ := accept_cases ha
    · cases hp
    · exact .inr ⟨w, ws, hw, hr, hx⟩
    · cases hp
  | txs =>
    cases h
    cases s.rst with
    | true => exact .inl (sameReceive_refl s)
    | false => exact .inl (sameReceive_txsDeliver s)
  | rxo =>
    cases h
    cases s.rst with
    | true => exact .inl (sameReceive_refl s)
    | false => exact .inl (sameReceive_rxoDeliver s)
  | resetAssert =>
    cases h
    exact .inl ⟨rfl, rfl, rfl⟩
  | resetRelease => exact absurd rfl hu

theorem noRxReset_of_runTurn {u : Turn} (hn : NoRxReset s) (h : runTurn u s = .next t) : NoRxReset t := by
  obtain ⟨hturns, hcsr⟩ := hn
  obtain ⟨hsuf, hus⟩ := csrIn_turns_of_runTurn h
  exact ⟨hus ▸ hturns, List.all_eq_true.mpr fun q hq => List.all_eq_true.mp hcsr q (hsuf.mem hq)⟩

/-- Everything a step can do to the receive side of such a host, which goes on so. -/
theorem step_receive_cases (hn : NoRxReset s) (h : step s = .next t) : NoRxReset t ∧ (SameReceive s t
    ∨ ∃ s' w ws, SameReceive s s' ∧ s'.cfg = s.cfg ∧ s'.rxiIn = w :: ws ∧ rxStall s' = false
        ∧ exec (decodeRxi w) (s'.setRxiIn ws) = .next t) := by
  obtain ⟨-, ⟨-, rfl⟩ | ⟨u, us, hu, hrun⟩⟩ := step_next_cases h
  · exact ⟨hn, .inl (sameReceive_refl _)⟩
  obtain ⟨hturns, hcsr⟩ := hn
  rw [hu] at hturns
  have hn' : NoRxReset (s.setTurns us) := ⟨fun v hv => hturns v (List.mem_cons_of_mem u hv), hcsr⟩
  refine ⟨noRxReset_of_runTurn hn' hrun, ?_⟩
  obtain hsame | ⟨w, ws, hw, hr, hx⟩ := runTurn_receive_cases hn' (hturns u List.mem_cons_self) hrun
  · exact .inl ⟨hsame.rx, hsame.rxiIn, hsame.bytes⟩
  · exact .inr ⟨s.setTurns us, w, ws, ⟨rfl, rfl, rfl⟩, rfl, hw, hr, hx⟩

/-! ## How far a run has come in a stream of samples ended by RXE -/

theorem decodeRxi_rxsWord (v : Byte) : decodeRxi (rxsWord v) = .rxs v := by
  obtain ⟨w, hw, hmatch⟩ := Laws.RowMatch.rxs v
  obtain rfl : rxsWord v = w := PortWord.rxi.inj hw
  rw [decodeRxi_of_rxs hmatch]
  exact congrArg Instr.rxs BitVec.extractLsb'_append_eq_right

theorem decodeRxi_rxeWord : decodeRxi 0x0100#16 = .rxe := (decodeRxi_rxe_iff _).mpr (by decide)

/-- Where a run from `s`, whose host offers the samples `vs` and then RXE, can stand: some samples taken and the rest on
offer, or RXE taken too. -/
inductive Decoding (s : State) (vs : List Byte) (t : State) : Prop where
  | taking (taken left : List Byte) (samples : vs = taken ++ left)
      (words : t.rxiIn = left.map rxsWord ++ [0x0100#16])
      (engine : t.rx = takeAll s.cfg (RxEngine.reset s.cfg.framesPerBit) taken)
      (bytes : t.rxoOut ++ t.rxOut = s.rxoOut ++ s.rxOut ++ bytesOf s.cfg (RxEngine.reset s.cfg.framesPerBit) taken)
  | ended (words : t.rxiIn = []) (engine : t.rx = RxEngine.reset s.cfg.framesPerBit)
      (bytes : t.rxoOut ++ t.rxOut = s.rxoOut ++ s.rxOut ++ bytesOf s.cfg (RxEngine.reset s.cfg.framesPerBit) vs)

theorem Decoding.of_sameReceive (hd : Decoding s vs s') (h : SameReceive s' t) : Decoding s vs t := by
  cases hd with
  | taking taken left samples words engine bytes =>
    exact .taking taken left samples (h.rxiIn.trans words) (h.rx.trans engine) (h.bytes.trans bytes)
  | ended words engine bytes => exact .ended (h.rxiIn.trans words) (h.rx.trans engine) (h.bytes.trans bytes)

/-- The transaction of the word on offer takes one more sample, or ends the stream. -/
theorem Decoding.of_exec {w : RxiWord} {ws : List RxiWord} (hd : Decoding s vs s') (hl : legal s.cfg = true)
    (hcfg : s'.cfg = s.cfg) (hw : s'.rxiIn = w :: ws) (hr : rxStall s' = false)
    (h : exec (decodeRxi w) (s'.setRxiIn ws) = .next t) : Decoding s vs t := by
  have hl' : legal (s'.setRxiIn ws).cfg = true := hcfg ▸ hl
  cases hd with
  | ended words => exact absurd (words.symm.trans hw) nofun
  | taking taken left samples words engine bytes =>
    cases left with
    | nil =>
      obtain ⟨rfl, rfl⟩ := List.cons.inj (words.symm.trans hw)
      rw [decodeRxi_rxeWord, exec_rxe_of_ready hl' hr] at h
      cases h
      rw [List.append_nil] at samples
      exact .ended rfl (by rw [← hcfg]; rfl) (samples ▸ bytes)
    | cons v left =>
      obtain ⟨rfl, rfl⟩ := List.cons.inj (words.symm.trans hw)
      rw [decodeRxi_rxsWord, exec_rxs_of_ready hl' hr] at h
      cases h
      refine .taking (taken ++ [v]) left (by rw [samples, List.append_assoc]; rfl) rfl ?_ ?_
      · rw [takeAll_concat, ← engine, ← hcfg]
        rfl
      · rw [bytesOf_concat, ← engine, ← List.append_assoc, ← bytes, ← hcfg, List.append_assoc]
        rfl

theorem step_decoding (hl : legal s.cfg = true) (hcfg : s'.cfg = s.cfg) (hn : NoRxReset s') (hd : Decoding s vs s')
    (h : step s' = .next t) : t.cfg = s.cfg ∧ NoRxReset t ∧ Decoding s vs t := by
  obtain ⟨hn', hcases⟩ := step_receive_cases hn h
  refine ⟨(step_next_cfg h).trans hcfg, hn', ?_⟩
  obtain hsame | ⟨s'', w, ws, hsame, hcfg', hw, hr, hx⟩ := hcases
  · exact hd.of_sameReceive hsame
  · exact (hd.of_sameReceive hsame).of_exec hl (hcfg'.trans hcfg) hw hr hx

theorem run_decoding {n : Nat} (hl : legal s.cfg = true) (hcfg : s'.cfg = s.cfg) (hn : NoRxReset s')
    (hd : Decoding s vs s') (h : Host.Core.run Sys2Proof.core n s' = .next t) : Decoding s vs t := by
  induction n generalizing s' with
  | zero =>
    rw [run_zero] at h
    cases h
    exact hd
  | succ n ih =>
    obtain ⟨u, hstep, hrun⟩ := run_succ_next h
    obtain ⟨hcfg', hn', hd'⟩ := step_decoding hl hcfg hn hd hstep
    exact ih hcfg' hn' hd' hrun

/-- Settles O42: each round of `dec` reads a stream shorter than the last, and a run stands at every step where the samples
taken so far have brought it. -/
theorem receivedBytesAreDec : Obligations.ReceivedBytesAreDec := by
  refine ⟨fun c es hl => ?_, fun n s t vs hl hrx _ hn hin h => ?_⟩
  · split_ifs with hshort
    · exact dec_of_short hshort
    · exact dec_of_long hl (Nat.le_of_not_lt hshort)
  have hstart : Decoding s vs s := .taking [] vs rfl hin hrx (List.append_nil _).symm
  cases run_decoding hl rfl hn hstart h with
  | taking taken left samples words engine bytes =>
    have htake : vs.take taken.length = taken := samples ▸ List.take_left
    have hlen : vs.length = taken.length + left.length := by rw [samples, List.length_append]
    refine ⟨taken.length, by omega, ?_, ?_, fun hk => by omega⟩
    · rw [words, hin, samples, List.map_append, List.append_assoc]
      exact (List.drop_left' (List.length_map _)).symm
    · rw [bytes, bytesOf_reset hl, htake]
  | ended words engine bytes =>
    refine ⟨vs.length + 1, Nat.le_refl _, ?_, ?_, fun _ => engine⟩
    · rw [words, hin]
      exact (List.drop_of_length_le (by simp)).symm
    · rw [bytes, bytesOf_reset hl, List.take_of_length_le (Nat.le_succ _)]

/-! ## Streams too short for a byte (rule R156) -/

/-- FILL takes N bits, SEEK one at least, and SAMPLE 8N. -/
theorem dec_eq_nil_of_short {es : List Bool} (hl : legal c = true) (h : es.length < 9 * c.framesPerBit + 1) :
    dec c es = [] := by
  by_cases hfill : es.length < c.framesPerBit
  · exact dec_of_short hfill
  · rw [dec_of_long hl (Nat.le_of_not_lt hfill), seekDec]
    cases hs : seekStart c (es.take c.framesPerBit) (es.drop c.framesPerBit) with
    | none => rfl
    | some r =>
      have hlt := length_of_seekStart hs
      rw [List.length_drop] at hlt
      exact if_pos (by omega)

/-- Settles O43: the machine has taken no more samples than there are, and so few decode to nothing. -/
theorem shortWaveformsDecodeToNothing : Obligations.ShortWaveformsDecodeToNothing := by
  refine ⟨fun c es hl => dec_eq_nil_of_short hl, fun n s t vs hl hrx hout hn hin hshort h => ?_⟩
  obtain ⟨k, -, -, hbytes, -⟩ := receivedBytesAreDec.2 n s t vs hl hrx hout hn hin h
  have hlen : (edges false (vs.take k)).length ≤ vs.length := by
    rw [length_edges]
    exact List.length_take_le' _ _
  rw [hbytes, dec_eq_nil_of_short hl (by omega), List.append_nil]

end Sys2Proof.Machine
end

section
/-!
PROOFS. No false start in a carrier (41_rx_decode.md rule R157): while SEEK sees no start, the window holds the last N sign-change
bits of the stream, and those of a carrier at the defaults alternate.
-/

namespace Sys2Proof.Machine

variable {c : Config} {r : RxEngine} {es : List Bool}

/-! ## The window before the first start bit (rules R143, R144) -/

/-- What the window holds after the bits `es`: the last N of them, behind cleared cells while there are fewer. -/
def lastBits (c : Config) (es : List Bool) : List Bool := (List.replicate c.framesPerBit false ++ es).drop es.length

theorem lastBits_concat (hl : legal c = true) (es : List Bool) (e : Bool) :
    lastBits c (es ++ [e]) = (lastBits c es).drop 1 ++ [e] := by
  have hN := (framesPerBit_bounds hl).1
  rw [lastBits, lastBits, List.drop_drop, ← List.append_assoc, List.length_append, List.length_singleton,
    List.drop_append_of_le_length]
  rw [List.length_append, List.length_replicate]
  omega

theorem lastBits_take {m : Nat} (hN : c.framesPerBit ≤ m) (hm : m ≤ es.length) :
    lastBits c (es.take m) = (es.drop (m - c.framesPerBit)).take c.framesPerBit := by
  rw [lastBits, List.length_take_of_le hm, List.drop_append, List.length_replicate,
    List.drop_of_length_le (by rw [List.length_replicate]; exact hN), List.nil_append, List.drop_take,
    Nat.sub_sub_self hN]

/-- The engine after the bits `es`, of which none has been seen as a start: it fills the window, then seeks. -/
structure Seeking (c : Config) (es : List Bool) (r : RxEngine) : Prop where
  inv : WindowInv c r
  state : r.state = if es.length < c.framesPerBit then .fill else .seek
  fill : r.state = .fill → r.fill.toNat = es.length
  holds : window r = lastBits c es

theorem seeking_reset (hl : legal c = true) : Seeking c [] (RxEngine.reset c.framesPerBit) where
  inv := (rxInv_reset (o := []) hl (Nat.zero_le _)).1
  state := (if_pos (framesPerBit_bounds hl).1).symm
  fill := fun _ => rfl
  holds := (List.rotate_zero _).trans (List.append_nil _).symm

/-- A bit that SEEK does not see as a start. -/
theorem Seeking.dispatch (h : Seeking c es r) (hl : legal c = true) (e : Bool)
    (hsum : c.framesPerBit ≤ es.length → c.startThreshold < ones (lastBits c (es ++ [e]))) :
    Seeking c (es ++ [e]) (rxDispatch c e r).1 := by
  have hN := framesPerBit_bounds hl
  have hlen : (es ++ [e]).length = es.length + 1 := List.length_append
  have hslid : (window r).drop 1 ++ [e] = lastBits c (es ++ [e]) := by rw [lastBits_concat hl, h.holds]
  by_cases hshort : es.length < c.framesPerBit
  · have hst : r.state = .fill := h.state.trans (if_pos hshort)
    have hfill := h.fill hst
    simp only [rxDispatch, hst]
    refine ⟨windowInv_fillStep hl hst h.inv e, ?_, fun _ => ?_, (window_fillStep hl h.inv e).trans hslid⟩
    · rw [hlen, rxFillStep, hfill, hst]
      by_cases hfull : es.length + 1 = c.framesPerBit
      · rw [if_pos hfull, if_neg (by omega)]
      · rw [if_neg hfull, if_pos (by omega)]
    · rw [hlen, ← hfill]
      exact toNat_ofNat_of_lt (by omega)
  · have hst : r.state = .seek := h.state.trans (if_neg hshort)
    have hnot : ¬ slidSum e r ≤ c.startThreshold := by
      rw [slidSum_eq_ones_window hl h.inv, hslid]
      exact Nat.not_le_of_lt (hsum (Nat.le_of_not_lt hshort))
    have hst' : (rxSeekStep c e r).state = .seek := by
      rw [rxSeekStep_of_not_seen hnot]
      exact hst
    simp only [rxDispatch, hst]
    refine ⟨windowInv_seekStep hl hst h.inv e, ?_, fun hf => ?_, (window_seekStep hl h.inv e).trans hslid⟩
    · rw [hst', hlen, if_neg (by omega)]
    · rw [hst'] at hf
      cases hf

theorem takeAll_prev (c : Config) (r : RxEngine) (vs : List Byte) :
    (takeAll c r vs).prev = vs.foldl (fun _ v => v.getLsbD 7) r.prev := by
  induction vs generalizing r with
  | nil => rfl
  | cons v vs ih => rw [takeAll, ih, rxTake_prev, List.foldl_cons]

theorem edges_concat (c : Config) (r : RxEngine) (vs : List Byte) (v : Byte) :
    edges r.prev (vs ++ [v]) = edges r.prev vs ++ [edge v (takeAll c r vs).prev] := by
  rw [edges_append, takeAll_prev]
  rfl

/-- The edge detector's field is in none of the conditions. -/
theorem Seeking.setPrev (h : Seeking c es r) (p : Bool) : Seeking c es { r with prev := p } :=
  ⟨h.inv, h.state, h.fill, h.holds⟩

/-- As long as every full window but the first holds more than TS ones, no start bit is seen. -/
theorem seeking_takeAll (hl : legal c = true) (vs : List Byte) (hsum : ∀ m ≤ vs.length, c.framesPerBit < m →
      c.startThreshold < ones (lastBits c ((edges false vs).take m))) :
    Seeking c (edges false vs) (takeAll c (RxEngine.reset c.framesPerBit) vs) := by
  induction vs using List.reverseRecOn with
  | nil => exact seeking_reset hl
  | append_singleton vs v ih =>
    have hlen : (edges false vs).length = vs.length := length_edges _ _
    have hedges : edges false (vs ++ [v]) = _ := edges_concat c (RxEngine.reset c.framesPerBit) vs v
    rw [hedges, List.length_append, List.length_singleton] at hsum
    rw [hedges, takeAll_concat]
    refine ((ih fun m hm hN => ?_).setPrev (v.getLsbD 7)).dispatch hl _ fun hfull => ?_
    · have htake := hsum m (by omega) hN
      rwa [List.take_append_of_le_length (by rw [length_edges]; exact hm)] at htake
    · have hall := hsum (vs.length + 1) (Nat.le_refl _) (by omega)
      rwa [List.take_of_length_le (by rw [List.length_append, length_edges]; rfl)] at hall

theorem edges_take (p : Bool) (vs : List Byte) (m : Nat) : edges p (vs.take m) = (edges p vs).take m := by
  induction vs generalizing p m with
  | nil => rw [List.take_nil, edges, List.take_nil]
  | cons v vs ih =>
    cases m with
    | zero => rfl
    | succ m => rw [List.take_succ_cons, edges, ih, edges, List.take_succ_cons]

/-! ## The sign-change bits of a carrier at the defaults -/

theorem carrier_default_succ (k : Nat) :
    carrier Config.default (k + 1) = [0x40#8, 0x40#8, 0xC0#8, 0xC0#8] ++ carrier Config.default k :=
  (rep_succ k _).trans (congrArg (· ++ _) (by decide))

/-- After a HIGH sample they alternate, from 1 on. -/
theorem edges_carrier_default (k : Nat) : edges true (carrier Config.default k) = rep (2 * k) [true, false] := by
  induction k with
  | zero => rfl
  | succ k ih =>
    rw [carrier_default_succ, edges_append, Nat.mul_succ, rep_succ, rep_succ]
    exact congrArg ([true, false, true, false] ++ ·) ih

theorem rep_add {α : Type} (m n : Nat) (l : List α) : rep (m + n) l = rep m l ++ rep n l := by
  rw [rep, ← List.replicate_append_replicate, List.flatten_append]
  rfl

/-- Every window of 32 alternating bits holds 16 ones. -/
theorem ones_window_alternating : ∀ i m : Nat, i + 32 ≤ 2 * m →
    ones (((rep m [true, false]).drop i).take 32) = 16
  | 0, m, h => by
    obtain ⟨n, rfl⟩ := Nat.exists_eq_add_of_le (show 16 ≤ m by omega)
    rw [List.drop_zero, rep_add, List.take_append_of_le_length (by decide)]
    decide
  | 1, m, h => by
    obtain ⟨n, rfl⟩ := Nat.exists_eq_add_of_le (show 17 ≤ m by omega)
    rw [rep_add, List.drop_append_of_le_length (by decide), List.take_append_of_le_length (by decide)]
    decide
  | i + 2, m, h => by
    obtain ⟨n, rfl⟩ := Nat.exists_eq_add_of_le' (show 1 ≤ m by omega)
    rw [rep_succ]
    exact ones_window_alternating i n (by omega)

/-- The polarity before the carrier makes the first sign-change bit, and no other. -/
theorem edges_carrier_default_succ (p : Bool) (k : Nat) : edges p (carrier Config.default (k + 1)) =
    p :: (edges true (carrier Config.default (k + 1))).tail := by
  rw [carrier_default_succ]
  exact congrArg (· :: _) (Bool.false_xor p)

/-- The windows of rule R157: 16 ones, but 15 in the very first where the first bit is 0. -/
theorem ones_carrier_window (k i : Nat) (p : Bool) (h : i + 32 ≤ 4 * k) :
    ones (((edges p (carrier Config.default k)).drop i).take 32) = if i = 0 ∧ p = false then 15 else 16 := by
  have hwindow := ones_window_alternating i (2 * k) (by omega)
  obtain ⟨k, rfl⟩ := Nat.exists_eq_add_of_le' (show 1 ≤ k by omega)
  rw [← edges_carrier_default, edges_carrier_default_succ] at hwindow
  rw [edges_carrier_default_succ]
  cases i with
  | succ i => exact hwindow
  | zero =>
    rw [List.drop_zero, List.take_succ_cons, ones_cons] at hwindow ⊢
    cases p with
    | true => exact hwindow
    | false =>
      rw [Bool.toNat_true] at hwindow
      rw [Bool.toNat_false, if_pos ⟨rfl, rfl⟩]
      omega

theorem length_carrier_default (k : Nat) : (carrier Config.default k).length = 4 * k :=
  (length_carrier _ k).trans (Nat.mul_comm _ _)

/-- A receiver at reset that takes the first samples of a carrier sees no start in them. -/
theorem seeking_carrier {k m : Nat} (hm : m ≤ 4 * k) :
    Seeking Config.default ((edges false (carrier Config.default k)).take m)
      (takeAll Config.default (RxEngine.reset 32) ((carrier Config.default k).take m)) := by
  have hlen := length_carrier_default k
  rw [← edges_take]
  refine seeking_takeAll default_legal _ fun j hj (hN : 32 < j) => ?_
  rw [List.length_take] at hj
  have hwindow := ones_carrier_window k (j - 32) false (by omega)
  rw [if_neg fun h => by omega] at hwindow
  rw [edges_take, List.take_take, Nat.min_eq_left (by omega),
    lastBits_take hN.le (by rw [length_edges]; omega)]
  exact (show 9 < 16 by decide).trans_eq hwindow.symm

/-- From the N-th sample on, rx_sum is the count of the last window. -/
theorem toNat_sum_carrier {k m : Nat} (hN : 32 ≤ m) (hm : m ≤ 4 * k) :
    (takeAll Config.default (RxEngine.reset 32) ((carrier Config.default k).take m)).sum.toNat
      = if m = 32 then 15 else 16 := by
  have hlen : m ≤ (edges false (carrier Config.default k)).length := by rwa [length_edges, length_carrier_default]
  have hfirst : (m - 32 = 0 ∧ false = false) ↔ m = 32 := (and_iff_left rfl).trans (by omega)
  have hseek := seeking_carrier hm
  rw [← ones_window hseek.inv, hseek.holds, lastBits_take hN hlen]
  exact (ones_carrier_window k (m - 32) false (by omega)).trans (if_congr hfirst rfl rfl)

/-- Settles O44: the carrier's bits alternate, so its windows hold half of N ones, more than TS. -/
theorem noFalseStartInACarrier : Obligations.NoFalseStartInACarrier := by
  refine ⟨ones_carrier_window, fun k m hm => ⟨?_, fun h => ?_, fun h => ?_⟩⟩
  · have hlen : ((edges false (carrier Config.default k)).take m).length = m :=
      List.length_take_of_le (by rwa [length_edges, length_carrier_default])
    rw [(seeking_carrier hm).state, hlen]
    rfl
  · exact BitVec.eq_of_toNat_eq ((toNat_sum_carrier h.ge hm).trans (if_pos h))
  · exact BitVec.eq_of_toNat_eq ((toNat_sum_carrier h.le hm).trans (if_neg h.ne'))

end Sys2Proof.Machine
end

section
/-!
PROOFS. The control-register access on the machine (42_csr.md rule R182) and what a step can do to the two error bits
(rule R183).
-/

namespace Sys2Proof.Machine

variable {s s' t : State} {u : Turn} {us : List Turn} {p : InPort} {i : Instr} {a b : Bool}

/-! ## The request on offer always transfers (rule R182) -/

theorem takeWord_csr {q : CsrReq} {qs : List CsrReq} (h : s.csrIn = q :: qs) :
    takeWord .csr s = some (.csr q, s.setCsrIn qs) := by
  simp [takeWord, h]

/-- In a legal block every control-register access answers a next state, whatever the engines do. -/
theorem exec_csr_next (hl : legal s.cfg = true) (hp : i.port = .csr) : ∃ t, exec i s = .next t := by
  cases i with
  | csrr x d => exact ⟨_, exec_csrr_of_legal hl x d⟩
  | csrw x d => exact ⟨_, exec_csrw_of_legal hl x d⟩
  | txb | txc | txcc | illegalTxc | rxs | rxe | illegalRxi => cases hp

/-- Settles O48: the csr port is always ready, so the turn runs the request on offer, and its meaning leaves the host's
requests and turns as they are. -/
theorem controlAccessAlwaysRuns : Obligations.ControlAccessAlwaysRuns := by
  intro s q qs us hl hr hu hq
  have hstep : step s = exec (decode (.csr q)) ((s.setTurns us).setCsrIn qs) :=
    (step_of_turn hl hu).trans (transact_of_offer (p := .csr) hr rfl (takeWord_csr hq))
  obtain ⟨t, ht⟩ := exec_csr_next (s := (s.setTurns us).setCsrIn qs) hl (port_decodeCsr q)
  have hhost := sameHost_of_exec ht
  exact ⟨hstep, t, hstep.trans ht, hhost.csrIn, hhost.turns⟩

/-! ## What a step writes into the error bits (rule R183) -/

/-- The error bits a turn can leave behind it, ERR_TXC first, with what writes them. -/
inductive ErrWrite (s : State) : Turn → Bool → Bool → Prop where
  | keep (u : Turn) : ErrWrite s u s.errTxc s.errRxi
  | reservedTxc (w : TxcWord) (ha : accepted .txc s = some (.illegalTxc w)) : ErrWrite s .txc true s.errRxi
  | reservedRxi (w : RxiWord) (ha : accepted .rxi s = some (.illegalRxi w)) : ErrWrite s .rxi s.errTxc true
  | statusWrite (d : CsrWord) (ha : accepted .csr s = some (.csrw 1 d)) :
      ErrWrite s .csr (if d.getLsbD 8 then false else s.errTxc) (if d.getLsbD 9 then false else s.errRxi)
  | hardwareReset (hr : s.rst = true) : ErrWrite s .resetRelease false false

/-- Two states that agree in the error bits. -/
structure SameErrors (s t : State) : Prop where
  errTxc : t.errTxc = s.errTxc
  errRxi : t.errRxi = s.errRxi

theorem SameErrors.errWrite (h : SameErrors s t) : ErrWrite s u t.errTxc t.errRxi := by
  rw [h.errTxc, h.errRxi]
  exact .keep u

/-- Consuming a word writes no error bit. -/
theorem sameErrors_of_accept (h : accept p s = some (i, t)) : SameErrors s t := by
  obtain ⟨-, -, _, _, -, -, rfl⟩ | ⟨-, -, _, _, -, -, rfl⟩ | ⟨-, _, _, -, -, rfl⟩ := accept_cases h <;>
    exact ⟨rfl, rfl⟩

/-- The turn of a transaction port changes nothing, or runs the accepted transaction with the error bits as they were. -/
theorem transact_errors_cases (h : transact p s = .next t) :
    t = s ∨ ∃ i s', accepted p s = some i ∧ i.port = p ∧ SameErrors s s' ∧ exec i s' = .next t := by
  obtain rfl | ⟨hr, i, s', ha, hx⟩ := transact_next_cases h
  · exact .inl rfl
  · exact .inr ⟨i, s', accepted_of_accept hr ha, port_of_accept ha, sameErrors_of_accept ha, hx⟩

theorem sameErrors_txsDeliver (s : State) : SameErrors s (txsDeliver s) := by
  cases hb : s.tx.busy with
  | false =>
    rw [txsDeliver_of_idle hb]
    exact ⟨rfl, rfl⟩
  | true =>
    rw [txsDeliver_of_busy hb]
    exact ⟨rfl, rfl⟩

theorem sameErrors_rxoDeliver (s : State) : SameErrors s (rxoDeliver s) := by
  cases ho : s.rxOut with
  | nil =>
    rw [rxoDeliver_of_empty ho]
    exact ⟨rfl, rfl⟩
  | cons b bs =>
    rw [rxoDeliver_of_cons ho]
    exact ⟨rfl, rfl⟩

theorem errWrite_of_exec_txc (ha : accepted .txc s = some i) (hp : i.port = .txc) (hs : SameErrors s s')
    (h : exec i s' = .next t) : ErrWrite s .txc t.errTxc t.errRxi := by
  obtain rfl | ⟨_, -, rfl⟩ | ⟨-, _, -, rfl⟩ | ⟨w, rfl, rfl⟩ := exec_txc_next_cases hp h
  · exact hs.errWrite
  · exact hs.errWrite
  · exact hs.errWrite
  · exact hs.errRxi ▸ .reservedTxc w ha

theorem errWrite_of_exec_rxi (ha : accepted .rxi s = some i) (hp : i.port = .rxi) (hs : SameErrors s s')
    (h : exec i s' = .next t) : ErrWrite s .rxi t.errTxc t.errRxi := by
  obtain rfl | ⟨_, -, -, rfl⟩ | ⟨-, rfl⟩ | ⟨w, rfl, rfl⟩ := exec_rxi_next_cases hp h
  · exact hs.errWrite
  · exact hs.errWrite
  · exact hs.errWrite
  · exact hs.errTxc ▸ .reservedRxi w ha

theorem errWrite_of_exec_csr (ha : accepted .csr s = some i) (hp : i.port = .csr) (hs : SameErrors s s')
    (h : exec i s' = .next t) : ErrWrite s .csr t.errTxc t.errRxi := by
  obtain rfl | ⟨_, _, -, rfl⟩ | ⟨d, -, rfl⟩ | ⟨d, rfl, rfl⟩ := exec_csr_next_cases hp h
  · exact hs.errWrite
  · exact hs.errWrite
  · rw [writeCtrl_eq]
    exact hs.errWrite
  · rw [writeStatus_eq, hs.errTxc, hs.errRxi]
    exact .statusWrite d ha

/-- Everything a turn can do to the error bits. -/
theorem runTurn_errWrite (h : runTurn u s = .next t) : ErrWrite s u t.errTxc t.errRxi := by
  cases u with
  | txc =>
    obtain rfl | ⟨i, s', ha, hp, hs, hx⟩ := transact_errors_cases h
    · exact .keep _
    · exact errWrite_of_exec_txc ha hp hs hx
  | rxi =>
    obtain rfl | ⟨i, s', ha, hp, hs, hx⟩ := transact_errors_cases h
    · exact .keep _
    · exact errWrite_of_exec_rxi ha hp hs hx
  | csr =>
    obtain rfl | ⟨i, s', ha, hp, hs, hx⟩ := transact_errors_cases h
    · exact .keep _
    · exact errWrite_of_exec_csr ha hp hs hx
  | txs =>
    cases h
    cases s.rst with
    | true => exact .keep _
    | false => exact (sameErrors_txsDeliver s).errWrite
  | rxo =>
    cases h
    cases s.rst with
    | true => exact .keep _
    | false => exact (sameErrors_rxoDeliver s).errWrite
  | resetAssert =>
    cases h
    exact .keep _
  | resetRelease =>
    cases h
    cases hr : s.rst with
    | true => exact .hardwareReset hr
    | false => exact .keep _

/-- What a port accepts does not depend on the turns to come. -/
theorem accepted_setTurns : accepted p (s.setTurns us) = accepted p s := by
  rw [accepted, accepted, accept_edit (keepsOffers_setTurns us) portReady_setTurns, Option.map_map]
  rfl

/-- The writers of the error bits do not depend on the turns to come. -/
theorem ErrWrite.of_setTurns (h : ErrWrite (s.setTurns us) u a b) : ErrWrite s u a b := by
  cases h with
  | keep => exact .keep u
  | reservedTxc w ha => exact .reservedTxc w (accepted_setTurns.symm.trans ha)
  | reservedRxi w ha => exact .reservedRxi w (accepted_setTurns.symm.trans ha)
  | statusWrite d ha => exact .statusWrite d (accepted_setTurns.symm.trans ha)
  | hardwareReset hr => exact .hardwareReset hr

/-- Everything a step can do to the error bits. -/
theorem step_errWrite (hu : s.turns = u :: us) (h : step s = .next t) : ErrWrite s u t.errTxc t.errRxi := by
  obtain ⟨-, hrun⟩ := runTurn_of_step hu h
  exact (runTurn_errWrite hrun).of_setTurns

/-- ERR_TXC changes only in the three ways of rule R183. -/
theorem ErrWrite.errTxc_ways (h : ErrWrite s u a b) (hne : a ≠ s.errTxc) :
    (a = true ∧ u = .txc ∧ ∃ w, accepted .txc s = some (.illegalTxc w))
      ∨ (a = false ∧ u = .csr ∧ ∃ d, accepted .csr s = some (.csrw 1 d) ∧ d.getLsbD 8 = true)
      ∨ (a = false ∧ u = .resetRelease ∧ s.rst = true) := by
  cases h with
  | keep | reservedRxi => exact absurd rfl hne
  | reservedTxc w ha => exact .inl ⟨rfl, rfl, w, ha⟩
  | statusWrite d ha =>
    split_ifs at hne ⊢ with hd
    · exact .inr (.inl ⟨rfl, rfl, d, ha, hd⟩)
    · exact absurd rfl hne
  | hardwareReset hr => exact .inr (.inr ⟨rfl, rfl, hr⟩)

/-- ERR_RXI changes only in the three ways of rule R183. -/
theorem ErrWrite.errRxi_ways (h : ErrWrite s u a b) (hne : b ≠ s.errRxi) :
    (b = true ∧ u = .rxi ∧ ∃ w, accepted .rxi s = some (.illegalRxi w))
      ∨ (b = false ∧ u = .csr ∧ ∃ d, accepted .csr s = some (.csrw 1 d) ∧ d.getLsbD 9 = true)
      ∨ (b = false ∧ u = .resetRelease ∧ s.rst = true) := by
  cases h with
  | keep | reservedTxc => exact absurd rfl hne
  | reservedRxi w ha => exact .inl ⟨rfl, rfl, w, ha⟩
  | statusWrite d ha =>
    split_ifs at hne ⊢ with hd
    · exact .inr (.inl ⟨rfl, rfl, d, ha, hd⟩)
    · exact absurd rfl hne
  | hardwareReset hr => exact .inr (.inr ⟨rfl, rfl, hr⟩)

/-- A turn that sets ERR_TXC leaves ERR_RXI as it was. -/
theorem ErrWrite.errRxi_of_sets_errTxc (h : ErrWrite s u a b) (h0 : s.errTxc = false) (ha : a = true) :
    b = s.errRxi := by
  cases h with
  | keep | reservedTxc => rfl
  | reservedRxi | statusWrite => simp [h0] at ha
  | hardwareReset => cases ha

/-- A turn that sets ERR_RXI leaves ERR_TXC as it was. -/
theorem ErrWrite.errTxc_of_sets_errRxi (h : ErrWrite s u a b) (h0 : s.errRxi = false) (hb : b = true) :
    a = s.errTxc := by
  cases h with
  | keep | reservedRxi => rfl
  | reservedTxc | statusWrite => simp [h0] at hb
  | hardwareReset => cases hb

/-- Settles O51: the ways are the cases of a step's effect on the error bits, and a case that sets one keeps the other. -/
theorem errorBitsChangeInThreeWays : Obligations.ErrorBitsChangeInThreeWays := by
  intro s t u us hu h
  have hw := step_errWrite hu h
  refine ⟨hw.errTxc_ways, hw.errRxi_ways, ?_, ?_⟩
  · rintro ⟨h0, hset, h1, hclear⟩
    exact Bool.false_ne_true (hclear.symm.trans ((hw.errRxi_of_sets_errTxc h0 hset).trans h1))
  · rintro ⟨h0, hset, h1, hclear⟩
    exact Bool.false_ne_true (hclear.symm.trans ((hw.errTxc_of_sets_errRxi h0 hset).trans h1))

end Sys2Proof.Machine
end

section
/-!
PROOFS. Errors and waits (60_exceptions.md): a reserved word costs its own word and its own sticky bit (rules R200 to R202),
and each wait of a port is lifted by the host (rule R214).
-/

namespace Sys2Proof.Machine

variable {s : State} {us : List Turn}

/-! ## Reserved words decode to the reserved forms (rules R84, R88) -/

theorem decodeTxc_of_reserved {w : TxcWord} (h : txcReserved w = true) : decodeTxc w = .illegalTxc w := by
  obtain ⟨v, hv, hrows⟩ := Laws.RowMatch.illegalTxc w h
  cases hv
  exact (decodeTxc_illegal_iff w).mpr hrows

theorem decodeRxi_of_reserved {w : RxiWord} (h : rxiReserved w = true) : decodeRxi w = .illegalRxi w := by
  obtain ⟨v, hv, hrows⟩ := Laws.RowMatch.illegalRxi w h
  cases hv
  exact (decodeRxi_illegal_iff w).mpr hrows

/-! ## A word on offer to a ready port (rules R107, R140) -/

theorem step_txc_of_idle {w : TxcWord} {ws : List TxcWord} (hl : legal s.cfg = true) (hr : s.rst = false)
    (hu : s.turns = .txc :: us) (hw : s.txcIn = w :: ws) (hidle : s.tx.busy = false) :
    step s = exec (decodeTxc w) ((s.setTurns us).setTxcIn ws) :=
  (transmitWordTransfersWhenIdle s w ws us hl hr hu hw).1 hidle

theorem step_rxi_of_no_stall {w : RxiWord} {ws : List RxiWord} (hl : legal s.cfg = true) (hr : s.rst = false)
    (hu : s.turns = .rxi :: us) (hw : s.rxiIn = w :: ws) (hgo : rxStall s = false) :
    step s = exec (decodeRxi w) ((s.setTurns us).setRxiIn ws) :=
  have hready : portReady .rxi (s.setTurns us) = true := rxiReady_of_no_stall hgo
  (step_of_turn hl hu).trans (transact_of_offer (s := s.setTurns us) hr hready (takeWord_rxi hw))

/-- Settles O52: the turn runs the reserved form in the state with the turn and the word taken off, and that form writes its
sticky bit alone. -/
theorem errorsArePrecise : Obligations.ErrorsArePrecise := by
  refine fun s us hl hr => ⟨fun w ws hu hw hidle hres => ?_, fun w ws hu hw hgo hres => ?_⟩
  · rw [step_txc_of_idle hl hr hu hw hidle, decodeTxc_of_reserved hres]
    exact exec_illegalTxc_of_idle (s := (s.setTurns us).setTxcIn ws) hl hidle w
  · rw [step_rxi_of_no_stall hl hr hu hw hgo, decodeRxi_of_reserved hres]
    exact exec_illegalRxi_of_ready (s := (s.setTurns us).setRxiIn ws) hl hgo w

/-! ## The waits (rule R214) -/

/-- A word offered to an idle transmit engine runs in the next step, from the state it was offered in. -/
theorem step_placeWord_txc (w : TxcWord) (hl : legal s.cfg = true) (hr : s.rst = false) (hidle : s.tx.busy = false) :
    step (placeWord (.txc w) s) = exec (decode (.txc w)) s :=
  have hback : s.setRst false = s := hr ▸ setRst_self s
  (step_txc_of_idle (s := placeWord (.txc w) s) hl rfl rfl rfl hidle).trans (congrArg (exec (decodeTxc w)) hback)

/-- A word offered to a receiver that is not stalled runs in the next step, from the state it was offered in. -/
theorem step_placeWord_rxi (w : RxiWord) (hl : legal s.cfg = true) (hr : s.rst = false) (hgo : rxStall s = false) :
    step (placeWord (.rxi w) s) = exec (decode (.rxi w)) s :=
  have hback : s.setRst false = s := hr ▸ setRst_self s
  (step_rxi_of_no_stall (s := placeWord (.rxi w) s) hl rfl rfl rfl hgo).trans (congrArg (exec (decodeRxi w)) hback)

/-- The engine is ready exactly once it has delivered all that it had left. -/
theorem txcReady_deliverN_iff (hl : legal s.cfg = true) (hi : TxInv s.cfg s.tx) (k : Nat) :
    txcReady (deliverN k s) = true ↔ (txRest s.cfg s.tx).length ≤ k := by
  obtain ⟨-, hbusy⟩ := deliverN_spec hl hi k
  rw [← Nat.not_lt, ← hbusy, txcReady, Bool.not_eq_true', Bool.eq_false_iff]

/-- Settles O55: deliveries idle a busy engine, a byte taken makes room in rx_out, and each readiness reads its own engine's
fields alone. -/
theorem everyWaitIsLifted : Obligations.EveryWaitIsLifted := by
  refine ⟨fun s hl hi => ⟨?_, fun k hk => ?_⟩, fun s hl hstall => ?_, fun s w v hl hr => ⟨fun hidle => ?_, fun hgo => ?_⟩,
    fun s x r o => ⟨rfl, rfl⟩⟩
  · exact (txcReady_deliverN_iff hl hi _).mpr le_rfl
  · exact Bool.eq_false_iff.mpr (mt (txcReady_deliverN_iff hl hi k).mp (Nat.not_le.mpr hk))
  · exact rxiReady_of_no_stall (rxStall_rxoDeliver hl hstall)
  · exact step_placeWord_txc w hl hr hidle
  · exact step_placeWord_rxi v hl hr hgo

end Sys2Proof.Machine
end

section
/-!
PROOFS. The resets (70_reset_and_hazards.md): the block holds still while the reset input is asserted and its release gives
every field its reset value (rule R220), each engine's own reset field by field (rules R221, R222), and the two clean-up
writes in either order (rule R223).
-/

namespace Sys2Proof.Machine

variable {s : State} {u : Turn} {us vs : List Turn}

/-! ## The reset input, turn by turn (rule R220) -/

theorem step_resetAssert (hl : legal s.cfg = true) (hu : s.turns = .resetAssert :: us) :
    step s = .next ((s.setTurns us).setRst true) :=
  step_of_turn hl hu

theorem step_resetRelease (hl : legal s.cfg = true) (hr : s.rst = true) (hu : s.turns = .resetRelease :: us) :
    step s = .next (hardwareReset (s.setTurns us)) :=
  (step_of_turn hl hu).trans (congrArg Host.Outcome.next (if_pos hr))

/-- While the input is asserted no turn is enabled, and a second assertion asserts what is asserted already. -/
theorem runTurn_of_rst (hr : s.rst = true) (hu : u ≠ .resetRelease) : runTurn u s = .next s := by
  cases u with
  | txc | rxi | csr => exact transact_of_rst hr
  | txs | rxo => exact congrArg Host.Outcome.next (if_pos hr)
  | resetAssert => exact congrArg Host.Outcome.next (hr ▸ setRst_self s)
  | resetRelease => exact absurd rfl hu

theorem step_of_rst (hl : legal s.cfg = true) (hr : s.rst = true) (hu : s.turns = u :: us) (hne : u ≠ .resetRelease) :
    step s = .next (s.setTurns us) :=
  (step_of_turn hl hu).trans (runTurn_of_rst (s := s.setTurns us) hr hne)

/-- While the input is asserted a run only takes turns off the list. -/
theorem run_of_rst (hl : legal s.cfg = true) (hr : s.rst = true) (hvs : ∀ v ∈ vs, v ≠ .resetRelease) {k : Nat}
    (hk : k ≤ vs.length) :
    Host.Core.run Sys2Proof.core k (s.setTurns (vs ++ us)) = .next (s.setTurns (vs.drop k ++ us)) := by
  induction k generalizing vs with
  | zero => rfl
  | succ k ih =>
    cases vs with
    | nil => exact absurd hk (Nat.not_succ_le_zero k)
    | cons v vs =>
      obtain ⟨hv, hvs⟩ := List.forall_mem_cons.mp hvs
      rw [run_succ_of_step (step_of_rst (s := s.setTurns (v :: vs ++ us)) hl hr rfl hv)]
      exact ih hvs (Nat.le_of_succ_le_succ hk)

/-- A run from the assertion on, before the release: the input is asserted, some turns are gone, and nothing else changed. -/
theorem run_resetAssert (hl : legal s.cfg = true) (hvs : ∀ v ∈ vs, v ≠ .resetRelease)
    (hu : s.turns = .resetAssert :: (vs ++ us)) {k : Nat} (hk : k ≤ vs.length) :
    Host.Core.run Sys2Proof.core (k + 1) s = .next ((s.setRst true).setTurns (vs.drop k ++ us)) :=
  (run_succ_of_step (step_resetAssert hl hu)).trans (run_of_rst (s := s.setRst true) hl rfl hvs hk)

/-- The run through the release ends in the hardware reset of the state the assertion found. -/
theorem run_resetRelease (hl : legal s.cfg = true) (hvs : ∀ v ∈ vs, v ≠ .resetRelease)
    (hu : s.turns = .resetAssert :: (vs ++ .resetRelease :: us)) :
    Host.Core.run Sys2Proof.core (vs.length + 2) s = .next (hardwareReset ((s.setRst true).setTurns us)) := by
  have hheld := run_resetAssert hl hvs hu le_rfl
  rw [List.drop_length] at hheld
  rw [run_add_of_next 1 hheld]
  exact run_succ_of_step (step_resetRelease (s := (s.setRst true).setTurns (.resetRelease :: us)) hl rfl rfl)

/-- STATUS reads no field that differs between a hardware reset and the block as built. -/
theorem statusWord_hardwareReset (s : State) : statusWord (hardwareReset s) = 0x00000000#32 :=
  statusWord_resetWith s.cfg

/-- Settles O11: up to the release a run changes the input and the turns alone, and the release is the hardware reset. -/
theorem noTransferUntilTheRelease : Obligations.NoTransferUntilTheRelease := by
  refine fun s vs us hl hvs hu => ⟨fun n t h1 hn h => ?_, _, run_resetRelease hl hvs hu, rfl, rfl, rfl, rfl, rfl, rfl, rfl,
    rfl, rfl, rfl, rfl, rfl, rfl, statusWord_hardwareReset _⟩
  obtain ⟨k, rfl⟩ := Nat.exists_eq_add_of_le' h1
  rw [run_resetAssert hl hvs hu (Nat.le_of_succ_le_succ hn)] at h
  cases h
  exact ⟨rfl, rfl, rfl, rfl, rfl, rfl, rfl⟩

/-! ## The pulse bits of CTRL (rules R40, R221, R222) -/

theorem exec_txRst (hl : legal s.cfg = true) : exec (.csrw 0 1) s = .next (s.setTx TxEngine.reset) :=
  exec_csrw_of_legal hl 0 1

theorem exec_rxRst (hl : legal s.cfg = true) :
    exec (.csrw 0 2) s = .next ((s.setRx (RxEngine.reset s.cfg.framesPerBit)).setRxOut []) :=
  exec_csrw_of_legal hl 0 2

/-- An idle engine has no delivery step (rule R115). -/
theorem deliverN_of_idle (hb : s.tx.busy = false) (n : Nat) : deliverN n s = s := by
  induction n with
  | zero => rfl
  | succ n ih => rw [deliverN, txsDeliver_of_idle hb, ih]

/-- Settles O49: the write resets the transmit fields alone, an idle engine delivers nothing, and under the invariants of
rule R25 an idle engine stands at reset already. -/
theorem transmitReset : Obligations.TransmitReset := by
  refine fun s hl => ⟨⟨_, exec_txRst hl, rfl, rfl, txRest_of_idle rfl, fun n => ?_⟩, fun hi hb => ?_⟩
  · rw [deliverN_of_idle rfl, setTx_txsOut]
  · rw [exec_txRst hl, ← tx_eq_reset_of_idle hi hb, setTx_self]

/-- Settles O50: the eleven values are the engine's reset; RX_RST also empties rx_out, and RXE writes the engine alone. -/
theorem receiveReset : Obligations.ReceiveReset :=
  fun _ hl => ⟨exec_rxRst hl, fun hgo => exec_rxe_of_ready hl hgo⟩

/-! ## The two clean-up writes (rule R223) -/

/-- CTRL and STATUS write disjoint fields. -/
theorem writeStatus_writeCtrl (d e : CsrWord) (s : State) :
    writeStatus d (writeCtrl e s) = writeCtrl e (writeStatus d s) := by
  rw [writeStatus_eq, writeCtrl_eq, writeCtrl_eq, writeStatus_eq]

theorem legal_csrWrite (hl : legal s.cfg = true) (x : BitVec 3) (d : CsrWord) : legal (csrWrite x d s).cfg = true :=
  exec_next_cfg (exec_csrw_of_legal hl x d) ▸ hl

/-- Settles O12: the two writes commute as functions of the state, and each leaves the parameters legal for the other. -/
theorem cleanUpWritesCommute : Obligations.CleanUpWritesCommute := by
  refine ⟨fun c _ => ⟨rfl, rxiReady_of_no_stall (rxStall_of_fill rfl)⟩, fun s d e hl => ?_⟩
  refine ⟨_, _, _, exec_csrw_of_legal hl 1 d, exec_csrw_of_legal (legal_csrWrite hl 1 d) 0 e, exec_csrw_of_legal hl 0 e,
    ?_, ?_⟩
  · rw [exec_csrw_of_legal (legal_csrWrite hl 0 e) 1 d]
    exact congrArg Host.Outcome.next (writeStatus_writeCtrl d e s)
  · rintro rfl rfl
    exact ⟨rfl, rfl, rfl, rfl, rfl⟩

end Sys2Proof.Machine
end

section
/-!
PROOFS. Encoding (30_encoding.md rules R80 to R95): the fields of a word put together give the word back, the two directions of
the round trip, and the words a command script offers.
-/

namespace Sys2Proof.Machine

/-! ## A word as its fields -/

/-- A word is its high field over its low field. -/
theorem append_low_of_high {m n : Nat} {w : BitVec (m + n)} {hi : BitVec m} (h : w.extractLsb' n m = hi) :
    hi ++ w.extractLsb' 0 n = w := by
  rw [← h, BitVec.extractLsb'_append_extractLsb'_eq_extractLsb' (Nat.zero_add n).symm, BitVec.extractLsb'_eq_self]

/-- A word that matches a row is the row's constant over the operand (rule R90). -/
theorem append_operand_of_match {m n : Nat} {w mask val : BitVec (m + n)} {hi : BitVec m} (h : w &&& mask = val)
    (hm : mask.extractLsb' n m = BitVec.allOnes m) (hx : val.extractLsb' n m = hi) : hi ++ w.extractLsb' 0 n = w :=
  append_low_of_high (Laws.RowMatch.field_of_match h hm hx)

/-- A constant over an operand is the constant ORed with the zero-extended operand (rule R94). -/
theorem append_eq_or_zeroExtend {m n : Nat} (hi : BitVec m) (lo : BitVec n) :
    hi ++ lo = (hi ++ 0#n) ||| lo.zeroExtend (m + n) := by
  refine BitVec.eq_of_getLsbD_eq fun k hk => ?_
  rw [BitVec.getLsbD_or, BitVec.getLsbD_append, BitVec.getLsbD_append, BitVec.getLsbD_setWidth]
  split_ifs with hlow
  · simp [hk]
  · simp [BitVec.getLsbD_of_ge lo k (Nat.le_of_not_lt hlow)]

/-! ## The fields of a request (rule R89) -/

section

variable (we : BitVec 1) (x : BitVec 3) (d : CsrWord)

theorem request_we : (we ++ x ++ d).getLsbD 35 = we.getLsbD 0 := by
  simp only [BitVec.getLsbD_append]
  rfl

theorem request_idx : (we ++ x ++ d).extractLsb' 32 3 = x :=
  (BitVec.extractLsb'_append_eq_of_le (Nat.le_refl 32)).trans BitVec.extractLsb'_append_eq_right

theorem request_wdata : (we ++ x ++ d).extractLsb' 0 32 = d := BitVec.extractLsb'_append_eq_right

theorem decodeCsr_readRequest : decodeCsr (0#1 ++ x ++ d) = .csrr x d := by
  rw [decodeCsr_of_read (request_we 0#1 x d), request_idx, request_wdata]

theorem decodeCsr_writeRequest : decodeCsr (1#1 ++ x ++ d) = .csrw x d := by
  rw [decodeCsr_of_write (request_we 1#1 x d), request_idx, request_wdata]

end

/-- A request is its WE bit, its IDX and its WDATA. -/
theorem request_eq (q : CsrReq) : BitVec.ofBool (q.getLsbD 35) ++ q.extractLsb' 32 3 ++ q.extractLsb' 0 32 = q := by
  have hwe : q.extractLsb' 35 1 = BitVec.ofBool (q.getLsbD 35) := by
    refine BitVec.eq_of_getLsbD_eq fun k hk => ?_
    obtain rfl : k = 0 := by omega
    rw [BitVec.getLsbD_extractLsb', BitVec.getLsbD_ofBool]
    rfl
  rw [← hwe, BitVec.extractLsb'_append_extractLsb'_eq_extractLsb' (by decide)]
  exact append_low_of_high rfl

/-! ## Decoding an encoded instruction -/

theorem decodeTxc_txcc_word (n : BitVec 24) : decodeTxc (0x30#8 ++ n) = .txcc n := by
  obtain ⟨w, hw, hmatch⟩ := Laws.RowMatch.txcc n
  obtain rfl : 0x30#8 ++ n = w := PortWord.txc.inj hw
  rw [decodeTxc_of_txcc hmatch]
  exact congrArg Instr.txcc BitVec.extractLsb'_append_eq_right

theorem port_encode (i : Instr) : (encode i).port = i.port := by
  cases i <;> rfl

/-- Settles O1: every row's word decodes to its instruction, and a reserved form is its own word. -/
theorem decodeOfEncode : Obligations.DecodeOfEncode := by
  intro i hi
  refine ⟨?_, port_encode i⟩
  cases i with
  | txb b => exact decodeTxc_txb_word b
  | txc n => exact decodeTxc_txc_word n
  | txcc n => exact decodeTxc_txcc_word n
  | illegalTxc w => exact decodeTxc_of_reserved hi
  | rxs v => exact decodeRxi_rxsWord v
  | rxe => exact decodeRxi_rxeWord
  | illegalRxi w => exact decodeRxi_of_reserved hi
  | csrr x d => exact decodeCsr_readRequest x d
  | csrw x d => exact decodeCsr_writeRequest x d

/-! ## Encoding a decoded word -/

theorem txcReserved_of_decode {w : TxcWord} (h : decodeTxc w = .illegalTxc w) : txcReserved w = true := by
  rw [decodeTxc_illegal_iff_fields] at h
  rw [txcReserved]
  generalize w.extractLsb' 28 4 = op at h ⊢
  obtain rfl | rfl | rfl | rfl | hop := opcode_cases op
  · rfl
  · simpa using h
  · simpa using h
  · simpa using h
  · split
    case h_4 => rfl
    all_goals omega

theorem rxiReserved_of_decode {w : RxiWord} (h : decodeRxi w = .illegalRxi w) : rxiReserved w = true := by
  rw [decodeRxi_illegal_iff_fields] at h
  rw [rxiReserved]
  generalize w.extractLsb' 8 8 = tag at h ⊢
  obtain rfl | rfl | htag := tag_cases tag
  · simp at h
  · simpa using h
  · split
    case h_3 => rfl
    all_goals omega

theorem encode_decodeTxc (w : TxcWord) : encode (decodeTxc w) = .txc w := by
  obtain ⟨h, -, -, hd⟩ | ⟨-, h, -, hd⟩ | ⟨-, -, h, hd⟩ | ⟨-, -, -, hd⟩ := decodeTxc_cases w <;> rw [hd]
  · exact congrArg PortWord.txc (append_operand_of_match (m := 24) (n := 8) (hi := 0x100000#24) h (by decide) (by decide))
  · exact congrArg PortWord.txc (append_operand_of_match (m := 16) (n := 16) (hi := 0x2000#16) h (by decide) (by decide))
  · exact congrArg PortWord.txc (append_operand_of_match (m := 8) (n := 24) (hi := 0x30#8) h (by decide) (by decide))
  · rfl

theorem wellFormed_decodeTxc (w : TxcWord) : (decodeTxc w).wellFormed = true := by
  obtain ⟨-, -, -, hd⟩ | ⟨-, -, -, hd⟩ | ⟨-, -, -, hd⟩ | ⟨-, -, -, hd⟩ := decodeTxc_cases w
  · rw [hd]; rfl
  · rw [hd]; rfl
  · rw [hd]; rfl
  · rw [hd]; exact txcReserved_of_decode hd

theorem encode_decodeRxi (w : RxiWord) : encode (decodeRxi w) = .rxi w := by
  obtain ⟨h, -, hd⟩ | ⟨-, h, hd⟩ | ⟨-, -, hd⟩ := decodeRxi_cases w <;> rw [hd]
  · exact congrArg PortWord.rxi (append_operand_of_match (m := 8) (n := 8) (hi := 0x00#8) h (by decide) (by decide))
  · exact congrArg PortWord.rxi ((rxe_match_iff_eq w).mp h).symm
  · rfl

theorem wellFormed_decodeRxi (w : RxiWord) : (decodeRxi w).wellFormed = true := by
  obtain ⟨-, -, hd⟩ | ⟨-, -, hd⟩ | ⟨-, -, hd⟩ := decodeRxi_cases w
  · rw [hd]; rfl
  · rw [hd]; rfl
  · rw [hd]; exact rxiReserved_of_decode hd

theorem encode_decodeCsr (q : CsrReq) : encode (decodeCsr q) = .csr q := by
  have hq := request_eq q
  cases hwe : q.getLsbD 35 with
  | false =>
    rw [hwe] at hq
    rw [decodeCsr_of_read hwe]
    exact congrArg PortWord.csr hq
  | true =>
    rw [hwe] at hq
    rw [decodeCsr_of_write hwe]
    exact congrArg PortWord.csr hq

theorem wellFormed_decodeCsr (q : CsrReq) : (decodeCsr q).wellFormed = true := by
  cases hwe : q.getLsbD 35 with
  | false => rw [decodeCsr_of_read hwe]; rfl
  | true => rw [decodeCsr_of_write hwe]; rfl

/-- Settles O2: a word that matches a row is the row's constant over its operand, any other word is kept whole. -/
theorem encodeOfDecode : Obligations.EncodeOfDecode := by
  intro w
  cases w with
  | txc w => exact ⟨encode_decodeTxc w, wellFormed_decodeTxc w, port_decodeTxc w⟩
  | rxi w => exact ⟨encode_decodeRxi w, wellFormed_decodeRxi w, port_decodeRxi w⟩
  | csr q => exact ⟨encode_decodeCsr q, wellFormed_decodeCsr q, port_decodeCsr q⟩

/-- Settles O4: each word against its row's match and mask, computed. -/
theorem sampleWordsDecode : Obligations.SampleWordsDecode := by
  unfold Obligations.SampleWordsDecode
  decide

/-! ## The words of a script (rules R94, R95) -/

theorem txb_word_eq_or (b : Byte) : 0x100000#24 ++ b = 0x10000000#32 ||| b.zeroExtend 32 :=
  append_eq_or_zeroExtend 0x100000#24 b

theorem txc_word_eq_or (n : BitVec 16) : 0x2000#16 ++ n = 0x20000000#32 ||| n.zeroExtend 32 :=
  append_eq_or_zeroExtend 0x2000#16 n

theorem txcc_word_eq_or (n : BitVec 24) : 0x30#8 ++ n = 0x30000000#32 ||| n.zeroExtend 32 :=
  append_eq_or_zeroExtend 0x30#8 n

theorem rxs_word_eq_or (v : Byte) : rxsWord v = 0x0000#16 ||| v.zeroExtend 16 :=
  append_eq_or_zeroExtend 0x00#8 v

/-- Lines that each offer one word offer their words in order. -/
theorem scriptWords_map {α : Type} {line : α → Line} {word : α → PortWord} (h : ∀ a, (line a).word = some (word a))
    (l : List α) : scriptWords (l.map line) = l.map word := by
  rw [scriptWords, List.filterMap_map, ← List.filterMap_eq_map']
  exact List.filterMap_congr fun a _ => h a

theorem scriptWords_append (ls ms : List Line) : scriptWords (ls ++ ms) = scriptWords ls ++ scriptWords ms :=
  List.filterMap_append

theorem scriptWords_encode (bs : List Byte) (l t : BitVec 16) : scriptWords (Pseudo.encode bs l t).expand
    = .txc (0x2000#16 ++ l) :: (bs.map fun b => .txc (0x100000#24 ++ b)) ++ [.txc (0x2000#16 ++ t)] := by
  have hframes : scriptWords (bs.map .txb) = bs.map fun b => .txc (0x100000#24 ++ b) := scriptWords_map (fun _ => rfl) bs
  rw [← hframes]
  exact scriptWords_append (.txc l :: bs.map .txb) [.txc t]

/-- Settles O5: a line's word is its row's constant over the operand, which is the OR, and a pseudo-instruction's words are
those of its lines. -/
theorem scriptLinesAreTheirTransactions : Obligations.ScriptLinesAreTheirTransactions := by
  refine ⟨fun b => ?_, fun n => ?_, fun n => ?_, fun v => ?_, rfl, decodeRxi_rxeWord, fun w => rfl, fun w => rfl,
    fun r => ⟨0#1 ++ r ++ 0#32, rfl, request_we 0 r 0, request_idx 0 r 0, decodeCsr_readRequest r 0⟩,
    fun r d => ⟨1#1 ++ r ++ d, rfl, request_we 1 r d, request_idx 1 r d, request_wdata 1 r d, decodeCsr_writeRequest r d⟩,
    fun n => ⟨rfl, rfl⟩, fun n => ⟨rfl, rfl⟩, fun bs => scriptWords_map (fun _ => rfl) bs, scriptWords_encode,
    fun vs => scriptWords_map (fun _ => rfl) vs, rfl, rfl, rfl⟩
  · rw [← txb_word_eq_or]
    exact ⟨rfl, decodeTxc_txb_word b⟩
  · rw [← txc_word_eq_or]
    exact ⟨rfl, decodeTxc_txc_word n⟩
  · rw [← txcc_word_eq_or]
    exact ⟨rfl, decodeTxc_txcc_word n⟩
  · rw [← rxs_word_eq_or]
    exact ⟨rfl, decodeRxi_rxsWord v⟩

end Sys2Proof.Machine
end

section
/-!
PROOFS. Rules of the whole machine (00_scope.md rules R6, R8, 10_state.md, 60_exceptions.md rules R200, R213, R214,
70_reset_and_hazards.md rule R220): a legal block always goes on, transfers that are not enabled leave it as it is, and
the reset input turn by turn.
-/

namespace Sys2Proof.Machine

variable {s t : State} {p : InPort} {i : Instr} {u : Turn} {us : List Turn}

/-! ## The gate of each transaction (rules R107, R140, R182) -/

theorem exec_eq_onTxc (hp : i.port = .txc) : ∃ f, exec i = onTxc f := by
  cases i with
  | txb | txc | txcc | illegalTxc => exact ⟨_, rfl⟩
  | rxs | rxe | illegalRxi | csrr | csrw => cases hp

theorem exec_eq_onRxi (hp : i.port = .rxi) : ∃ f, exec i = onRxi f := by
  cases i with
  | rxs | rxe | illegalRxi => exact ⟨_, rfl⟩
  | txb | txc | txcc | illegalTxc | csrr | csrw => cases hp

theorem exec_eq_onCsr (hp : i.port = .csr) : ∃ f, exec i = onCsr f := by
  cases i with
  | csrr | csrw => exact ⟨_, rfl⟩
  | txb | txc | txcc | illegalTxc | rxs | rxe | illegalRxi => cases hp

/-- Settles O22: a transaction passes its port's gate, which answers the same state while the port is not ready. -/
theorem wordsWaitAtAPortThatIsNotReady : Obligations.WordsWaitAtAPortThatIsNotReady := by
  refine fun s i hl => ⟨fun hp hb => ?_, fun hp hstall => ?_⟩
  · obtain ⟨f, hf⟩ := exec_eq_onTxc hp
    rw [hf, onTxc_of_busy hl hb]
  · obtain ⟨f, hf⟩ := exec_eq_onRxi hp
    rw [hf, onRxi_of_stall hl hstall]

/-! ## A legal block always goes on (rules R6, R8, R200) -/

theorem exec_total (hl : legal s.cfg = true) (i : Instr) : ∃ t, exec i s = .next t := by
  cases hp : i.port with
  | txc =>
    obtain ⟨f, hf⟩ := exec_eq_onTxc hp
    rw [hf]
    cases hb : s.tx.busy with
    | false => exact ⟨_, onTxc_of_ready hl hb⟩
    | true => exact ⟨_, onTxc_of_busy hl hb⟩
  | rxi =>
    obtain ⟨f, hf⟩ := exec_eq_onRxi hp
    rw [hf]
    cases hr : rxStall s with
    | false => exact ⟨_, onRxi_of_ready hl hr⟩
    | true => exact ⟨_, onRxi_of_stall hl hr⟩
  | csr =>
    obtain ⟨f, hf⟩ := exec_eq_onCsr hp
    rw [hf]
    exact ⟨_, onCsr_of_legal hl⟩

theorem transact_total (hl : legal s.cfg = true) (p : InPort) : ∃ t, transact p s = .next t := by
  cases hr : s.rst with
  | true => exact ⟨_, transact_of_rst hr⟩
  | false =>
    cases ha : accept p s with
    | none => exact ⟨_, transact_of_wait ha⟩
    | some a =>
      rw [transact_of_accept hr ha]
      exact exec_total ((sameEngines_of_accept ha).cfg ▸ hl) a.1

theorem runTurn_total (hl : legal s.cfg = true) (u : Turn) : ∃ t, runTurn u s = .next t := by
  cases u with
  | txc => exact transact_total hl .txc
  | rxi => exact transact_total hl .rxi
  | csr => exact transact_total hl .csr
  | txs | rxo | resetAssert | resetRelease => exact ⟨_, rfl⟩

theorem step_total (hl : legal s.cfg = true) : ∃ t, step s = .next t := by
  cases hu : s.turns with
  | nil => exact ⟨_, step_of_no_turn hl hu⟩
  | cons u us =>
    rw [step_of_turn hl hu]
    exact runTurn_total (s := s.setTurns us) hl u

/-- Settles O7: every gate and every turn answers a next state in a legal block, and none writes the parameters. -/
theorem legalBlocksNeverStop : Obligations.LegalBlocksNeverStop := by
  refine fun s hl => ⟨?_, fun i => ?_⟩
  · obtain ⟨t, h⟩ := step_total hl
    exact ⟨t, h, step_next_cfg h⟩
  · obtain ⟨t, h⟩ := exec_total hl i
    exact ⟨t, h, exec_next_cfg h⟩

/-! ## Transfers that are not enabled (rule R213) -/

theorem accept_of_no_offer (h : takeWord p s = none) : accept p s = none := by
  rw [accept, h]
  exact ite_self none

theorem transact_of_no_offer (h : takeWord p s = none) : transact p s = .next s :=
  transact_of_wait (accept_of_no_offer h)

theorem takeWord_txc_of_nil (h : s.txcIn = []) : takeWord .txc s = none := by
  simp [takeWord, h]

theorem takeWord_rxi_of_nil (h : s.rxiIn = []) : takeWord .rxi s = none := by
  simp [takeWord, h]

theorem takeWord_csr_of_nil (h : s.csrIn = []) : takeWord .csr s = none := by
  simp [takeWord, h]

theorem deliver_of_fixed {f : State → State} (h : f s = s) : deliver f s = .next s := by
  rw [deliver, h, ite_self]

/-- A turn whose transfer is not enabled, with the reset input released or asserted. -/
theorem runTurn_of_not_enabled (h : (u = .txc ∧ (s.txcIn = [] ∨ s.tx.busy = true)) ∨ (u = .txs ∧ s.tx.busy = false)
    ∨ (u = .rxi ∧ (s.rxiIn = [] ∨ rxStall s = true)) ∨ (u = .rxo ∧ s.rxOut = []) ∨ (u = .csr ∧ s.csrIn = [])) :
    runTurn u s = .next s := by
  obtain ⟨rfl, hin | hb⟩ | ⟨rfl, hb⟩ | ⟨rfl, hin | hstall⟩ | ⟨rfl, ho⟩ | ⟨rfl, hin⟩ := h
  · exact transact_of_no_offer (takeWord_txc_of_nil hin)
  · exact transact_of_not_ready (txcReady_of_busy hb)
  · exact deliver_of_fixed (txsDeliver_of_idle hb)
  · exact transact_of_no_offer (takeWord_rxi_of_nil hin)
  · exact transact_of_not_ready (rxiReady_of_stall hstall)
  · exact deliver_of_fixed (rxoDeliver_of_empty ho)
  · exact transact_of_no_offer (takeWord_csr_of_nil hin)

/-- Settles O54: the turn leaves the list, and what is not enabled changes nothing else. -/
theorem idleTurnsHoldTheState : Obligations.IdleTurnsHoldTheState :=
  fun s hl => ⟨step_of_no_turn hl, fun _ us hu h =>
    (step_of_turn hl hu).trans (runTurn_of_not_enabled (s := s.setTurns us) h)⟩

/-! ## The reset input (rules R45, R220) -/

/-- Settles O13: both engines' reset values meet their invariants. -/
theorem resetMeetsInvariants : Obligations.ResetMeetsInvariants :=
  fun c hl => ⟨hl, txInv_reset c, rxInv_reset hl (Nat.zero_le _)⟩

/-- A release that follows no assertion. -/
theorem step_release_of_released (hl : legal s.cfg = true) (hr : s.rst = false) (hu : s.turns = .resetRelease :: us) :
    step s = .next (s.setTurns us) :=
  (step_of_turn hl hu).trans (congrArg Host.Outcome.next (if_neg (Bool.eq_false_iff.mp hr)))

/-- Settles O10: each turn of the input has its own equation, and after the release both ports find an engine at reset. -/
theorem hardwareResetTurnByTurn : Obligations.HardwareReset := by
  refine fun s u us hl hu => ⟨fun _ ha => ?_, fun hr hne => ?_, fun hr hrel => ?_, fun hr hrel => ?_⟩
  · exact step_resetAssert hl (ha ▸ hu)
  · exact step_of_rst hl hr hu hne
  · refine ⟨step_resetRelease (us := us) hl hr (hrel ▸ hu), rfl, ?_, txcReady_of_idle rfl, ?_⟩
    · exact statusWord_hardwareReset s
    · exact rxiReady_of_no_stall (rxStall_of_fill rfl)
  · exact step_release_of_released hl hr (hrel ▸ hu)

end Sys2Proof.Machine
end

section
/-!
PROOFS. The two engines commute (20_memory.md rule R74, 00_scope.md rule R14): a turn of an engine reads and writes its own
side of the block alone, so it does the same beside whatever the other side holds.
-/

namespace Sys2Proof.Machine

variable {s t x : State} {p : InPort} {i : Instr} {u : Turn} {us : List Turn}

/-! ## The two sides of the block -/

/-- `x` with the transmit side of `s`: the transmit fields, ERR_TXC, and the host's side of txc and txs. -/
def State.withTx (x s : State) : State :=
  { x with tx := s.tx, errTxc := s.errTxc, txcIn := s.txcIn, txsOut := s.txsOut }

/-- `x` with the receive side of `s`: the receive fields, rx_out, ERR_RXI, and the host's side of rxi and rxo. -/
def State.withRx (x s : State) : State :=
  { x with rx := s.rx, rxOut := s.rxOut, errRxi := s.errRxi, rxiIn := s.rxiIn, rxoOut := s.rxoOut }

/-- A turn of a port moves with an edit `g` of the state when `g` leaves the reset input and what the port accepts alone, and
moves with the accepted transaction. -/
theorem transact_move {g : State → State} (hrst : (g s).rst = s.rst)
    (hacc : accept p (g s) = (accept p s).map (Prod.map id g))
    (hexec : ∀ i s', accept p s = some (i, s') → exec i s' = .next t → exec i (g s') = .next (g t))
    (h : transact p s = .next t) : transact p (g s) = .next (g t) := by
  cases hr : s.rst with
  | true =>
    rw [transact_of_rst hr] at h
    cases h
    exact transact_of_rst (hrst.trans hr)
  | false =>
    cases ha : accept p s with
    | none =>
      rw [transact_of_wait ha] at h
      cases h
      exact transact_of_wait (by rw [hacc, ha]; rfl)
    | some a =>
      rw [transact_of_accept hr ha] at h
      rw [transact_of_accept (hrst.trans hr) (by rw [hacc, ha]; rfl)]
      exact hexec a.1 a.2 ha h

/-! ## The transmit side (rule R24) -/

theorem onTxc_withTx {f : State → State} (hcfg : x.cfg = s.cfg) (hf : f (x.withTx s) = x.withTx (f s))
    (h : onTxc f s = .next t) : onTxc f (x.withTx s) = .next (x.withTx t) := by
  obtain ⟨hl, ⟨hb, ht⟩ | ⟨hb, ht⟩⟩ := onTxc_next_cases h <;> rw [ht]
  · rw [← hf]
    exact onTxc_of_ready (s := x.withTx s) (hcfg ▸ hl) hb
  · exact onTxc_of_busy (s := x.withTx s) (hcfg ▸ hl) hb

theorem startCarrier_withTx (n : BitVec 32) (x s : State) :
    startCarrier n (x.withTx s) = x.withTx (startCarrier n s) := by
  rw [startCarrier, startCarrier]
  split_ifs <;> rfl

theorem exec_withTx (hcfg : x.cfg = s.cfg) (hp : i.port = .txc) (h : exec i s = .next t) :
    exec i (x.withTx s) = .next (x.withTx t) := by
  cases i with
  | txb b => exact onTxc_withTx (f := (·.setTx (txStartFrame b))) hcfg rfl h
  | txc n =>
    have hmove : startCarrier (secondsCount x.cfg n) (x.withTx s) = x.withTx (startCarrier (secondsCount s.cfg n) s) :=
      hcfg ▸ startCarrier_withTx _ x s
    exact onTxc_withTx (f := fun s => startCarrier (secondsCount s.cfg n) s) hcfg hmove h
  | txcc n => exact onTxc_withTx hcfg (startCarrier_withTx _ x s) (exec_txcc n s ▸ h)
  | illegalTxc w => exact onTxc_withTx hcfg rfl (exec_illegalTxc w s ▸ h)
  | rxs | rxe | illegalRxi | csrr | csrw => cases hp

theorem accept_withTx (x s : State) : accept .txc (x.withTx s) = (accept .txc s).map (Prod.map id x.withTx) := by
  have hready : portReady .txc (x.withTx s) = portReady .txc s := rfl
  rw [accept, accept, hready]
  cases hw : s.txcIn with
  | nil => rw [takeWord_txc_of_nil hw, takeWord_txc_of_nil (s := x.withTx s) hw]; cases portReady .txc s <;> rfl
  | cons w ws => rw [takeWord_txc hw, takeWord_txc (s := x.withTx s) hw]; cases portReady .txc s <;> rfl

theorem txsDeliver_withTx (hcfg : x.cfg = s.cfg) : txsDeliver (x.withTx s) = x.withTx (txsDeliver s) := by
  cases hb : s.tx.busy with
  | false => rw [txsDeliver_of_idle hb, txsDeliver_of_idle (s := x.withTx s) hb]
  | true =>
    rw [txsDeliver_of_busy hb, txsDeliver_of_busy (s := x.withTx s) hb, ← hcfg]
    rfl

/-- A turn of the transmit engine reads the parameters, the reset input and the transmit side, and writes the last. -/
theorem runTurn_withTx (hu : u = .txc ∨ u = .txs) (hcfg : x.cfg = s.cfg) (hrst : x.rst = s.rst)
    (h : runTurn u s = .next t) : runTurn u (x.withTx s) = .next (x.withTx t) := by
  obtain rfl | rfl := hu
  · refine transact_move (g := x.withTx) hrst (accept_withTx x s) (fun i s' ha hx => ?_) h
    exact exec_withTx (hcfg.trans (sameEngines_of_accept ha).cfg.symm) (port_of_accept ha) hx
  · cases h
    refine congrArg Host.Outcome.next ?_
    rw [show (x.withTx s).rst = s.rst from hrst, txsDeliver_withTx hcfg]
    cases s.rst <;> rfl

/-! ## The receive side (rule R37) -/

theorem rxStall_withRx (hcfg : x.cfg = s.cfg) : rxStall (x.withRx s) = rxStall s := by
  rw [rxStall, rxStall, ← hcfg]
  rfl

theorem onRxi_withRx {f : State → State} (hcfg : x.cfg = s.cfg) (hf : f (x.withRx s) = x.withRx (f s))
    (h : onRxi f s = .next t) : onRxi f (x.withRx s) = .next (x.withRx t) := by
  obtain ⟨hl, ⟨hr, ht⟩ | ⟨hr, ht⟩⟩ := onRxi_next_cases h <;> rw [ht]
  · rw [← hf]
    exact onRxi_of_ready (s := x.withRx s) (hcfg ▸ hl) ((rxStall_withRx hcfg).trans hr)
  · exact onRxi_of_stall (s := x.withRx s) (hcfg ▸ hl) ((rxStall_withRx hcfg).trans hr)

theorem exec_withRx (hcfg : x.cfg = s.cfg) (hp : i.port = .rxi) (h : exec i s = .next t) :
    exec i (x.withRx s) = .next (x.withRx t) := by
  cases i with
  | rxs v => exact onRxi_withRx hcfg (by rw [← hcfg]; rfl) (exec_rxs v s ▸ h)
  | rxe => exact onRxi_withRx hcfg (by rw [rxEngineReset_keep, rxEngineReset_keep, ← hcfg]; rfl) (exec_rxe s ▸ h)
  | illegalRxi w => exact onRxi_withRx hcfg rfl (exec_illegalRxi w s ▸ h)
  | txb | txc | txcc | illegalTxc | csrr | csrw => cases hp

theorem accept_withRx (hcfg : x.cfg = s.cfg) :
    accept .rxi (x.withRx s) = (accept .rxi s).map (Prod.map id x.withRx) := by
  have hready : portReady .rxi (x.withRx s) = portReady .rxi s := congrArg (!·) (rxStall_withRx hcfg)
  rw [accept, accept, hready]
  cases hw : s.rxiIn with
  | nil => rw [takeWord_rxi_of_nil hw, takeWord_rxi_of_nil (s := x.withRx s) hw]; cases portReady .rxi s <;> rfl
  | cons w ws => rw [takeWord_rxi hw, takeWord_rxi (s := x.withRx s) hw]; cases portReady .rxi s <;> rfl

theorem rxoDeliver_withRx (x s : State) : rxoDeliver (x.withRx s) = x.withRx (rxoDeliver s) := by
  cases ho : s.rxOut with
  | nil => rw [rxoDeliver_of_empty ho, rxoDeliver_of_empty (s := x.withRx s) ho]
  | cons b bs =>
    rw [rxoDeliver_of_cons ho, rxoDeliver_of_cons (s := x.withRx s) ho]
    rfl

/-- A turn of the receive engine reads the parameters, the reset input and the receive side, and writes the last. -/
theorem runTurn_withRx (hu : u = .rxi ∨ u = .rxo) (hcfg : x.cfg = s.cfg) (hrst : x.rst = s.rst)
    (h : runTurn u s = .next t) : runTurn u (x.withRx s) = .next (x.withRx t) := by
  obtain rfl | rfl := hu
  · refine transact_move (g := x.withRx) hrst (accept_withRx hcfg) (fun i s' ha hx => ?_) h
    exact exec_withRx (hcfg.trans (sameEngines_of_accept ha).cfg.symm) (port_of_accept ha) hx
  · cases h
    refine congrArg Host.Outcome.next ?_
    rw [show (x.withRx s).rst = s.rst from hrst, rxoDeliver_withRx]
    cases s.rst <;> rfl

/-! ## Either order -/

theorem run_two {v : Turn} {t' : State} (hl : legal s.cfg = true) (h : runTurn u (s.setTurns (v :: us)) = .next t)
    (ht : t.turns = v :: us) (h' : runTurn v (t.setTurns us) = .next t') :
    Host.Core.run Sys2Proof.core 2 (s.setTurns (u :: v :: us)) = .next t' := by
  have hstep : step (s.setTurns (u :: v :: us)) = .next t := (step_of_turn (s := s.setTurns (u :: v :: us)) hl rfl).trans h
  have hl' : legal t.cfg = true := step_next_cfg hstep ▸ hl
  rw [run_succ_of_step hstep, run_succ_of_step ((step_of_turn hl' ht).trans h')]
  rfl

/-- Settles O53: each turn writes its own side, from what it finds there, so both orders write both sides alike; an illegal
block is refused in either order. -/
theorem enginesCommute : Obligations.EnginesCommute := by
  intro s u v us hu hv
  cases hl : legal s.cfg with
  | false =>
    have hrefused (w : List Turn) : Host.Core.run Sys2Proof.core 2 (s.setTurns w) = .refused .illegalConfig := by
      simp only [Host.Core.run]
      rw [show Sys2Proof.core.step (s.setTurns w) = .refused .illegalConfig from step_of_illegal hl]
    exact (hrefused (u :: v :: us)).trans (hrefused (v :: u :: us)).symm
  | true =>
    obtain ⟨t, ht⟩ := runTurn_total hl u
    obtain ⟨r, hr⟩ := runTurn_total hl v
    have hu1 := runTurn_withTx (s := s) (x := s.setTurns (v :: us)) hu rfl rfl ht
    have hv2 := runTurn_withRx (s := s) (x := (s.setTurns us).withTx t) hv rfl rfl hr
    have hv1 := runTurn_withRx (s := s) (x := s.setTurns (u :: us)) hv rfl rfl hr
    have hu2 := runTurn_withTx (s := s) (x := (s.setTurns us).withRx r) hu rfl rfl ht
    exact (run_two hl hu1 rfl hv2).trans (run_two hl hv1 rfl hu2).symm

end Sys2Proof.Machine
end

section
/-!
PROOFS. The round trip at the defaults (40_tx_synth.md rule R117, 41_rx_decode.md rules R155, R158): the sign-change bits of
a waveform come in blocks of 32, one per frame bit, and a receiver that sees one frame's start 33, 29 or 27 bits into its
start block sees that of every later frame at the same place.
-/

namespace Sys2Proof.Machine

variable {c : Config} {e : Bool} {es : List Bool}

/-! ## The first SEEK step (rules R144, R155) -/

/-- FILL tests nothing and the first SEEK step drops the oldest bit: it sees a start in the N bits after it, or the stream
decodes as it does without that bit. -/
theorem dec_cons (hl : legal c = true) (e : Bool) (hlen : c.framesPerBit ≤ es.length) : dec c (e :: es) =
    if ones (es.take c.framesPerBit) ≤ c.startThreshold then sampleDec c (es.drop c.framesPerBit) else dec c es := by
  obtain ⟨n, hn⟩ := Nat.exists_eq_add_of_le' (framesPerBit_bounds hl).1
  have hlt : n < es.length := by omega
  rw [dec_of_long (es := e :: es) hl (Nat.le_succ_of_le hlen), dec_of_long hl hlen, hn, List.take_succ_cons, List.drop_succ_cons,
    List.drop_eq_getElem_cons hlt, seekDec_cons, List.drop_succ_cons, List.drop_zero,
    ← List.take_succ_eq_append_getElem hlt]

theorem dec_cons_of_no_start (hl : legal c = true) (e : Bool) (hlen : c.framesPerBit ≤ es.length)
    (hsum : c.startThreshold < ones (es.take c.framesPerBit)) : dec c (e :: es) = dec c es := by
  rw [dec_cons hl e hlen, if_neg (Nat.not_le_of_lt hsum)]

theorem dec_of_start (hl : legal c = true) (hlen : c.framesPerBit < es.length)
    (hsum : ones ((es.drop 1).take c.framesPerBit) ≤ c.startThreshold) :
    dec c es = sampleDec c (es.drop (c.framesPerBit + 1)) := by
  cases es with
  | nil => exact absurd hlen (Nat.not_lt_zero _)
  | cons e es => exact (dec_cons hl e (Nat.le_of_lt_succ hlen)).trans (if_pos hsum)

/-- No test sees the first bit of a stream. -/
theorem dec_cons_congr (hl : legal c = true) (e e' : Bool) (es : List Bool) : dec c (e :: es) = dec c (e' :: es) := by
  by_cases hlen : c.framesPerBit ≤ es.length
  · rw [dec_cons hl e hlen, dec_cons hl e' hlen]
  · rw [dec_eq_nil_of_short hl, dec_eq_nil_of_short hl] <;> rw [List.length_cons] <;> omega

/-- The polarity before a stream of samples makes its first sign-change bit alone. -/
theorem dec_edges_congr (hl : legal c = true) (p q : Bool) (vs : List Byte) : dec c (edges p vs) = dec c (edges q vs) := by
  cases vs with
  | nil => rfl
  | cons v vs => exact dec_cons_congr hl _ _ _

/-! ## The sign-change bits of a waveform at the defaults -/

/-- The sign-change bits of a bit block that follows a HIGH sample (rules R102, R141). -/
def blockEdges (bit : Bool) : List Bool := if bit then rep 16 [true, false] else rep 8 [true, false, false, false]

/-- Those of a frame (rule R104). -/
def frameEdges (b : Byte) : List Bool := (frame b).flatMap blockEdges

/-- Every block ends HIGH, so the bits of what follows it are those after a HIGH sample. -/
theorem edges_block_append (bit : Bool) (vs : List Byte) :
    edges true (block Config.default bit ++ vs) = blockEdges bit ++ edges true vs := by
  have hblock : edges true (block Config.default bit) = blockEdges bit := by cases bit <;> decide
  have hhigh : (block Config.default bit).foldl (fun _ v => v.getLsbD 7) true = true := by cases bit <;> decide
  rw [edges_append, hblock, hhigh]

theorem edges_blocks_append (bits : List Bool) (vs : List Byte) :
    edges true (bits.flatMap (block Config.default) ++ vs) = bits.flatMap blockEdges ++ edges true vs := by
  induction bits with
  | nil => rfl
  | cons bit bits ih => rw [List.flatMap_cons, List.append_assoc, edges_block_append, ih, ← List.append_assoc]; rfl

theorem edges_frames_append (bytes : List Byte) (vs : List Byte) :
    edges true (bytes.flatMap (frameSamples Config.default) ++ vs) = bytes.flatMap frameEdges ++ edges true vs := by
  induction bytes with
  | nil => rfl
  | cons b bytes ih =>
    rw [List.flatMap_cons, List.append_assoc, frameSamples, edges_blocks_append, ih, ← List.append_assoc]; rfl

theorem edges_carrier_append (k : Nat) (vs : List Byte) :
    edges true (carrier Config.default k ++ vs) = rep (2 * k) [true, false] ++ edges true vs := by
  induction k with
  | zero => rfl
  | succ k ih =>
    rw [carrier_default_succ, List.append_assoc, edges_append, Nat.mul_succ, rep_succ, rep_succ]
    exact congrArg ([true, false, true, false] ++ ·) ih

theorem edges_waveform (j k : Nat) (bytes : List Byte) :
    edges true (carrier Config.default j ++ bytes.flatMap (frameSamples Config.default) ++ carrier Config.default k)
      = rep (2 * j) [true, false] ++ (bytes.flatMap frameEdges ++ rep (2 * k) [true, false]) := by
  rw [List.append_assoc, edges_carrier_append, edges_frames_append, edges_carrier_default]

/-! ## No start in alternating bits (rule R157) -/

theorem dec_alternating (n : Nat) : dec Config.default (rep n [true, false]) = [] := by
  induction n with
  | zero => rfl
  | succ n ih =>
    have hlen : (rep n [true, false]).length = n * 2 := length_rep n _
    by_cases hshort : n < 16
    · refine dec_eq_nil_of_short default_legal ?_
      rw [length_rep]
      exact (show (n + 1) * 2 < 289 by omega)
    · have hfirst := ones_window_alternating 1 (n + 1) (by omega)
      have hsecond := ones_window_alternating 0 n (by omega)
      rw [rep_succ] at hfirst ⊢
      calc dec Config.default (true :: false :: rep n [true, false])
          = dec Config.default (false :: rep n [true, false]) :=
            dec_cons_of_no_start default_legal true (show 32 ≤ _ by rw [List.length_cons]; omega)
              ((show 9 < 16 by decide).trans_eq hfirst.symm)
        _ = dec Config.default (rep n [true, false]) :=
            dec_cons_of_no_start default_legal false (show 32 ≤ _ by omega)
              ((show 9 < 16 by decide).trans_eq hsecond.symm)
        _ = [] := ih

/-! ## A receiver in step with the frames (rules R144 to R146) -/

/-- The last 2p sign-change bits of a block. -/
def blockTail (bit : Bool) (p : Nat) : List Bool := (blockEdges bit).drop (32 - 2 * p)

/-- The numbers p for which a receiver that begins to fill its window 2p bits before a frame sees the frame's start in its
first SEEK step, at bit 33 - 2p of the start block, and comes to stand 2p bits before the next frame. -/
def inStep : List Nat := [0, 2, 3]

variable {p : Nat}

theorem blockTail_true (hp : p ∈ inStep) : blockTail true p = rep p [true, false] := by
  revert p
  decide

/-- A window of such a receiver, for a start bit or a data bit, lies in the end of one block and the two blocks after it. -/
theorem window_in_step (hp : p ∈ inStep) (prev cur next : Bool) (rest : List Bool) :
    ((blockTail prev p ++ (blockEdges cur ++ (blockEdges next ++ rest))).drop 1).take 32
      = ((blockTail prev p ++ (blockEdges cur ++ blockEdges next)).drop 1).take 32 := by
  have hlen : 33 ≤ (blockTail prev p ++ (blockEdges cur ++ blockEdges next)).length := by
    revert p prev cur next
    decide
  rw [← List.append_assoc (blockEdges cur), ← List.append_assoc, List.drop_append_of_le_length (by omega),
    List.take_append_of_le_length (by rw [List.length_drop]; omega)]

/-- One block on, the receiver stands as far from the next block as it stood from this one. -/
theorem drop_block (hp : p ∈ inStep) (prev cur : Bool) (rest : List Bool) :
    (blockTail prev p ++ (blockEdges cur ++ rest)).drop 32 = blockTail cur p ++ rest := by
  have hlen : 32 ≤ (blockTail prev p ++ blockEdges cur).length := by
    revert p prev cur
    decide
  have hdrop : (blockTail prev p ++ blockEdges cur).drop 32 = blockTail cur p := by
    revert p prev cur
    decide
  rw [← List.append_assoc, List.drop_append_of_le_length hlen, hdrop]

theorem drop_blocks (hp : p ∈ inStep) (bits : List Bool) (prev : Bool) (rest : List Bool) :
    (blockTail prev p ++ (bits.flatMap blockEdges ++ rest)).drop (bits.length * 32)
      = blockTail (bits.getLastD prev) p ++ rest := by
  induction bits generalizing prev with
  | nil => rfl
  | cons bit bits ih =>
    rw [List.flatMap_cons, List.append_assoc, List.length_cons, Nat.succ_mul, Nat.add_comm, ← List.drop_drop,
      drop_block hp, ih, List.getLastD_cons]

/-- Data windows in step with the blocks read the blocks' bits (rule R145). -/
theorem dataBits_in_step (hp : p ∈ inStep) (n : Nat) (bits : List Bool) (hn : n < bits.length) (prev : Bool)
    (rest : List Bool) :
    dataBits Config.default n ((blockTail prev p ++ (bits.flatMap blockEdges ++ rest)).drop 1) = bits.take n := by
  have hdata : ∀ p ∈ inStep, ∀ prev cur next, decide
      (12 ≤ ones (((blockTail prev p ++ (blockEdges cur ++ blockEdges next)).drop 1).take 32)) = cur := by decide
  induction n generalizing bits prev with
  | zero => rfl
  | succ n ih =>
    obtain _ | ⟨cur, _ | ⟨next, bits⟩⟩ := bits
    · cases hn
    · exact absurd hn (by simp)
    · have htail := ih (next :: bits) (Nat.lt_of_succ_lt_succ hn) cur
      rw [← drop_block hp prev, List.drop_drop] at htail
      have hwindow := window_in_step hp prev cur next (bits.flatMap blockEdges ++ rest)
      rw [dataBits, List.drop_drop, List.take_succ_cons, ← htail]
      simp only [List.flatMap_cons, List.append_assoc]
      refine congrArg₂ List.cons ?_ rfl
      exact (congrArg (fun l => decide (12 ≤ ones l)) hwindow).trans (hdata p hp prev cur next)

theorem withBits_frame (b : Byte) : withBits 0 0 ((frame b).tail.take 8) = b := by
  revert b
  decide

theorem length_flatMap_blockEdges (bits : List Bool) : (bits.flatMap blockEdges).length = bits.length * 32 := by
  have hblock (bit : Bool) : (blockEdges bit).length = 32 := by cases bit <;> rfl
  simp [List.length_flatMap, hblock]

theorem length_frame (b : Byte) : (frame b).length = 12 := rfl

/-- A frame's bits are its start block's and those of the blocks behind it. -/
theorem frameEdges_append (b : Byte) (rest : List Bool) :
    frameEdges b ++ rest = blockEdges false ++ ((frame b).tail.flatMap blockEdges ++ rest) :=
  List.append_assoc _ _ _

/-- The start block is seen as a start in the first SEEK step. -/
theorem ones_start_window (hp : p ∈ inStep) (b : Byte) (rest : List Bool) :
    ones (((blockTail true p ++ (frameEdges b ++ rest)).drop 1).take 32) ≤ 9 := by
  have hstart : ∀ p ∈ inStep, ∀ next,
      ones (((blockTail true p ++ (blockEdges false ++ blockEdges next)).drop 1).take 32) ≤ 9 := by decide
  have hnext : (frame b).tail = b.getLsbD 0 :: (frame b).tail.tail := rfl
  rw [frameEdges_append, hnext, List.flatMap_cons, List.append_assoc, window_in_step hp]
  exact hstart p hp (b.getLsbD 0)

/-- A receiver in step with a frame decodes its byte, and stands in step with what follows. -/
theorem dec_frame (hp : p ∈ inStep) (b : Byte) (rest : List Bool) :
    dec Config.default (blockTail true p ++ (frameEdges b ++ rest))
      = b :: dec Config.default (blockTail true p ++ rest) := by
  have hlen : 384 ≤ (blockTail true p ++ (frameEdges b ++ rest)).length := by
    rw [List.length_append, List.length_append, frameEdges, length_flatMap_blockEdges, length_frame]
    omega
  have hbits : dataBits Config.default 8 ((blockTail true p ++ (frameEdges b ++ rest)).drop 33) = (frame b).tail.take 8 := by
    rw [← dataBits_in_step hp 8 (frame b).tail (show 8 < 11 by decide) false rest, ← drop_block hp true false,
      ← frameEdges_append, List.drop_drop]
  have hrest : (blockTail true p ++ (frameEdges b ++ rest)).drop (12 * 32) = blockTail true p ++ rest :=
    drop_blocks hp (frame b) true rest
  calc dec Config.default (blockTail true p ++ (frameEdges b ++ rest))
      = sampleDec Config.default ((blockTail true p ++ (frameEdges b ++ rest)).drop 33) :=
        dec_of_start default_legal (show 32 < _ by omega) (ones_start_window hp b rest)
    _ = dataByte Config.default ((blockTail true p ++ (frameEdges b ++ rest)).drop 33)
          :: dec Config.default (((blockTail true p ++ (frameEdges b ++ rest)).drop 33).drop 351) :=
        if_neg (show ¬ _ < 256 by rw [List.length_drop]; omega)
    _ = b :: dec Config.default (blockTail true p ++ rest) := by
        rw [← withBits_dataBits, hbits, withBits_frame, List.drop_drop, hrest]

theorem dec_frames (hp : p ∈ inStep) (bytes : List Byte) (m : Nat) :
    dec Config.default (blockTail true p ++ (bytes.flatMap frameEdges ++ rep m [true, false])) = bytes := by
  induction bytes with
  | nil =>
    rw [blockTail_true hp, List.flatMap_nil, List.nil_append, ← rep_add]
    exact dec_alternating (p + m)
  | cons b bytes ih => rw [List.flatMap_cons, List.append_assoc, dec_frame hp, ih]

/-! ## The leader (rules R143, R157) -/

/-- A leader of three pairs of bits or more hides the start of the block behind it from the first SEEK step. -/
theorem ones_leader_window {n : Nat} (hn : 3 ≤ n) : 9 < ones ((rep n [true, false] ++ blockEdges false).take 31) := by
  by_cases hlong : 16 ≤ n
  · obtain ⟨k, rfl⟩ := Nat.exists_eq_add_of_le hlong
    rw [rep_add, List.append_assoc, List.take_append_of_le_length (by decide)]
    decide
  · interval_cases n <;> decide

/-- One pair of bits more in such a leader makes no difference. -/
theorem dec_leader_succ {n : Nat} (hn : 3 ≤ n) (rest : List Bool) :
    dec Config.default (rep (n + 1) [true, false] ++ (blockEdges false ++ rest))
      = dec Config.default (rep n [true, false] ++ (blockEdges false ++ rest)) := by
  set es := rep n [true, false] ++ (blockEdges false ++ rest) with hes
  have hlen : 32 ≤ es.length := by
    have hblock : (blockEdges false).length = 32 := by decide
    rw [hes, List.length_append, List.length_append, hblock]
    omega
  have htake : es.take 31 = (rep n [true, false] ++ blockEdges false).take 31 := by
    rw [hes, ← List.append_assoc, List.take_append_of_le_length]
    rw [List.length_append]
    exact Nat.le_add_left_of_le (by decide)
  have hwindow : 9 < ones (es.take 31) := htake ▸ ones_leader_window hn
  have hgrow : ones (es.take 31) ≤ ones (es.take 32) := (List.take_prefix_take_left (by decide)).sublist.count_le true
  calc dec Config.default (rep (n + 1) [true, false] ++ (blockEdges false ++ rest))
      = dec Config.default (true :: false :: es) := by rw [rep_succ, List.append_assoc]; rfl
    _ = dec Config.default (false :: es) := by
        refine dec_cons_of_no_start default_legal true (Nat.le_succ_of_le hlen) ?_
        exact hwindow.trans_eq ((ones_cons false (es.take 31)).trans (Nat.zero_add _)).symm
    _ = dec Config.default es := dec_cons_of_no_start default_legal false hlen (hwindow.trans_le hgrow)

theorem dec_long_leader_frames {n : Nat} (hn : 3 ≤ n) (bytes : List Byte) (m : Nat) :
    dec Config.default (rep n [true, false] ++ (bytes.flatMap frameEdges ++ rep m [true, false])) = bytes := by
  cases bytes with
  | nil =>
    rw [List.flatMap_nil, List.nil_append, ← rep_add]
    exact dec_alternating (n + m)
  | cons b bytes =>
    induction n, hn using Nat.le_induction with
    | base =>
      rw [← blockTail_true (p := 3) (by decide)]
      exact dec_frames (by decide) (b :: bytes) m
    | succ n hn ih =>
      rw [List.flatMap_cons, List.append_assoc, frameEdges_append] at ih ⊢
      exact (dec_leader_succ hn _).trans ih

/-- Behind a leader of any length but one pair of bits the receiver comes in step with the frames. -/
theorem dec_leader_frames {n : Nat} (hn : n ≠ 1) (bytes : List Byte) (m : Nat) :
    dec Config.default (rep n [true, false] ++ (bytes.flatMap frameEdges ++ rep m [true, false])) = bytes := by
  by_cases hlong : 3 ≤ n
  · exact dec_long_leader_frames hlong bytes m
  · have hshort : n ∈ inStep := by
      interval_cases n
      · decide
      · exact absurd rfl hn
      · decide
    rw [← blockTail_true hshort]
    exact dec_frames hshort bytes m

/-- Settles O45: the sign-change bits of the waveform decode to its bytes, and a run that has taken every word has brought
out what they decode to. -/
theorem roundTripAtTheDefaults : Obligations.RoundTripAtTheDefaults := by
  refine ⟨fun _ _ _ => rfl, fun n s t j k bytes hcfg hrx hout hn hin hrun hdone => ?_⟩
  have hl : legal s.cfg = true := hcfg ▸ default_legal
  obtain ⟨m, -, hwords, hbytes, -⟩ := receivedBytesAreDec.2 n s t _ hl (hcfg ▸ hrx) (hout ▸ Nat.zero_le _) hn hin hrun
  have hall : s.rxiIn.length ≤ m := List.drop_eq_nil_iff.mp (hwords.symm.trans hdone)
  rw [hin, List.length_append, List.length_map, List.length_singleton] at hall
  rw [hbytes, hout, List.append_nil, List.take_of_length_le (Nat.le_of_succ_le hall), hcfg,
    dec_edges_congr default_legal false true, edges_waveform, dec_leader_frames (by omega)]

end Sys2Proof.Machine
end
